-- ==== Sys2Proof/Word.lean ====
section
/-! DEFINITION. The unsigned values of the block (00_scope.md R7): u8, u16 and u32, bit 0 the least
significant bit. -/

namespace Sys2Proof

/-- `u8`: a byte of the payload memory, of the output stream, or an opcode. -/
abbrev Byte := BitVec 8

/-- `u16`: the two-byte fields of the wire packets. -/
abbrev Half := BitVec 16

/-- `u32`: every register of the block, every command word and every payload address. -/
abbrev Word := BitVec 32

end Sys2Proof
end

