-- ==== Sys2Proof/Syntax.lean ====
section
/-! DEFINITION. The commands of the block (30_encoding.md R81), one constructor per row of
opcode_table.json. A command word holds no operand field: operands come from ARG0 and ARG1 (R80, R83). -/

namespace Sys2Proof

/-- The eight commands (30_encoding.md R81). -/
inductive Instr where
  /-- CRC_INIT, word 0x00000001 (41_crc.md R104). -/
  | crcInit
  /-- CRC_FEED, word 0x00000002 (41_crc.md R105). -/
  | crcFeed
  /-- CRC_BUF, word 0x00000003 (41_crc.md R106). -/
  | crcBuf
  /-- TBL_READ, word 0x00000004 (41_crc.md R107). -/
  | tblRead
  /-- PUT16, word 0x00000010 (42_encoder.md R130). -/
  | put16
  /-- PUT32, word 0x00000011 (42_encoder.md R131). -/
  | put32
  /-- HDR, word 0x00000020 (43_framer.md R150). -/
  | hdr
  /-- CHUNK, word 0x00000021 (43_framer.md R151). -/
  | chunk
  deriving DecidableEq, Repr

end Sys2Proof
end

