-- ==== Sys2Proof/WellFormed.lean ====
section
/-! DEFINITION. What a well-formed command word is (30_encoding.md R80 to R82, said by the ranges R82 lists and not
through the decoder) and what a well-formed register-port access is (20_memory.md R51). -/

namespace Sys2Proof.WellFormed

/-- The opcodes R82 calls illegal: 0x00, 0x05..0x0F, 0x12..0x1F and 0x22..0xFF. -/
def illegalOpcode (opc : Nat) : Bool :=
  opc == 0x00 || (0x05 ≤ opc && opc ≤ 0x0F) || (0x12 ≤ opc && opc ≤ 0x1F) || (0x22 ≤ opc && opc ≤ 0xFF)

/-- The MBZ field of a command word, bits [31:8], is zero (R80). -/
def mbzZero (w : Word) : Bool := w.toNat / 256 == 0

/-- A command word is well formed when MBZ is zero and OPC, bits [7:0], is not one of R82's illegal ones. -/
def word (w : Word) : Bool := mbzZero w && !illegalOpcode (w.toNat % 256)

/-- A command as syntax has no fields, so each of the eight is well formed (R81, R85). -/
def instr (i : Instr) : Bool :=
  match i with
  | .crcInit => true
  | .crcFeed => true
  | .crcBuf => true
  | .tblRead => true
  | .put16 => true
  | .put32 => true
  | .hdr => true
  | .chunk => true

/-- An access is one of the register port when it is 4 bytes wide at a multiple of 4 in 0x00..0x1C (R51). -/
def access (bytes off : Nat) : Bool := bytes == 4 && off % 4 == 0 && off ≤ 0x1C

end Sys2Proof.WellFormed
end

