-- ==== Sys2Proof/Decode.lean ====
section
/-! DEFINITION. Decoding a command word (30_encoding.md R80 to R82), total on all 2^32 words and rejecting by name,
and the encoder. The register port carries a command as one u32 without byte lanes (20_memory.md R51),
so the decoder's input is the word itself. -/

namespace Sys2Proof

/-- Why a word is no command (R82). -/
inductive DecodeError where
  /-- Bits [31:8] are not zero, whatever the opcode. -/
  | mbzNotZero (mbz : BitVec 24)
  /-- MBZ is zero and the opcode is none of R81's. -/
  | undefinedOpcode (opc : Byte)
  deriving DecidableEq, Repr

/-- What the decoder answers. -/
inductive Decoded where
  /-- The word is this command. -/
  | command (i : Instr)
  /-- The word is illegal (R82). -/
  | illegal (e : DecodeError)
  deriving DecidableEq, Repr

/-- The opcode map of R81. -/
def decodeOpcode (opc : Byte) : Option Instr :=
  if opc = 0x01#8 then some .crcInit
  else if opc = 0x02#8 then some .crcFeed
  else if opc = 0x03#8 then some .crcBuf
  else if opc = 0x04#8 then some .tblRead
  else if opc = 0x10#8 then some .put16
  else if opc = 0x11#8 then some .put32
  else if opc = 0x20#8 then some .hdr
  else if opc = 0x21#8 then some .chunk
  else none

/-- OPC, bits [7:0] of a command word (R80). -/
def opcField (w : Word) : Byte := w.extractLsb' 0 8

/-- MBZ, bits [31:8] of a command word (R80). -/
def mbzField (w : Word) : BitVec 24 := w.extractLsb' 8 24

/-- The decoder: MBZ first, then the opcode map (R80 to R82, R95). -/
def decode (w : Word) : Decoded :=
  if mbzField w ≠ 0#24 then .illegal (.mbzNotZero (mbzField w))
  else
    match decodeOpcode (opcField w) with
    | some i => .command i
    | none => .illegal (.undefinedOpcode (opcField w))

/-- The opcode of a command (R81), which acceptance latches into LOP (R95). -/
def opcode (i : Instr) : Byte :=
  match i with
  | .crcInit => 0x01#8
  | .crcFeed => 0x02#8
  | .crcBuf => 0x03#8
  | .tblRead => 0x04#8
  | .put16 => 0x10#8
  | .put32 => 0x11#8
  | .hdr => 0x20#8
  | .chunk => 0x21#8

/-- The command word of a command: MBZ zero above the opcode (R80, R81). -/
def encode (i : Instr) : Word := 0#24 ++ opcode i

/-- The command the decoder reads from the `nbits` low bits of `w`, every bit above them zero; a value of
more than 32 bits is no command word (R85). -/
def decodeTableWord (nbits w : Nat) : Option Instr :=
  if w % 2 ^ nbits < 2 ^ 32 then
    match decode (BitVec.ofNat 32 (w % 2 ^ nbits)) with
    | .command i => some i
    | .illegal _ => none
  else none

end Sys2Proof
end

