-- ==== Sys2Proof/Config.lean ====
section
/-! DEFINITION. The parameters of the block (00_scope.md R5). The two OPEN ones have no body, so nothing
can be proved about their value; the fixed ones are the spec's numbers. -/

namespace Sys2Proof.Config

/-- `MAGIC`: the marker at the start of every packet, any 32-bit value (R5, R91; log entry 1). -/
opaque magic : Word

/-- Which 32-byte window of the driver's bus the registers occupy: `REG_BASE / 32` (R5, R67; log entry 2). -/
opaque regWindow : Nat

/-- `REG_BASE`, 32-byte aligned (R5). The block itself sees only the offset of an access from it (R20, R51). -/
def regBase : Nat := 32 * regWindow

/-- `TAG_HEADER` (R5, R90). -/
def tagHeader : Byte := 0x01#8

/-- `TAG_CHUNK` (R5, R90). -/
def tagChunk : Byte := 0x02#8

/-- The reflected CRC polynomial (R5, R100). -/
def crcPoly : Word := 0xEDB88320#32

/-- The initial value of the checksum register (R5, R102, R104). -/
def crcInitial : Word := 0xFFFFFFFF#32

/-- The final XOR of the checksum (R5, R102). -/
def crcFinalXor : Word := 0xFFFFFFFF#32

end Sys2Proof.Config
end

