-- ==== Sys2Proof/Machine/State.lean ====
section
/-! DEFINITION. The state of the machine as plain data: the block's own state (10_state.md R38), the payload
memory and the output stream of its environment (R38, R55, R59), and, as the model's own data, what the
environment will do next (log entries 4 to 6). -/

namespace Sys2Proof.Machine

/-- One event of the output stream `OUT` (20_memory.md R59). -/
inductive OutEvent where
  /-- `Byte(b)`: the sink accepted the byte `b`. -/
  | byte (b : Byte)
  /-- `Flush`: the block requested a flush (R61). -/
  | flush
  deriving DecidableEq, Repr

/-- What the completion of a command writes (30_encoding.md R96): the new RESULT and the new ACC, each only if
the command's rule gives one. -/
structure Writes where
  result : Option Word
  acc    : Option Word
  deriving DecidableEq, Repr

/-- The progress of the command in flight (10_state.md R33). -/
inductive Progress where
  /-- `k` payload bytes have been read; `c` is the checksum register after them, `buf` the bytes themselves
  (CRC_BUF and CHUNK only). -/
  | reading (k : Nat) (c : Word) (buf : List Byte)
  /-- Every payload byte has been read; `todo` are the output events still to emit, and with none left the
  completion, which writes `wr`, comes next. -/
  | emitting (todo : List OutEvent) (wr : Writes)
  /-- The block has requested a flush and waits for the sink's acknowledgment (R61). -/
  | awaitingAck (todo : List OutEvent) (wr : Writes)
  deriving DecidableEq, Repr

/-- The command in flight (10_state.md R33): the latches LOP, LA0, LA1 and the progress. -/
structure InFlight where
  lop      : Byte
  la0      : Word
  la1      : Word
  progress : Progress
  deriving DecidableEq, Repr

/-- How often an agent will still act before it holds back (log entry 4). -/
inductive Credit where
  /-- It never holds back. -/
  | unlimited
  /-- It acts `n` more times, then holds back. -/
  | upTo (n : Nat)
  deriving DecidableEq, Repr

/-- What the environment lets the engine do before it holds back (20_memory.md R60, 70_reset_and_hazards.md
R238, R240; log entry 4). -/
structure Readiness where
  /-- The engine's internal steps: a flush request, a completion. -/
  engine : Credit
  /-- Payload reads the memory will answer. -/
  memory : Credit
  /-- Bytes the sink will accept. -/
  sink   : Credit
  /-- Flushes the sink will acknowledge. -/
  flush  : Credit
  deriving DecidableEq, Repr

/-- One operation of the driver's program (30_encoding.md R92, R93). `bytes` is the width of an access and `off`
its byte offset from `REG_BASE`; only aligned 4-byte accesses are part of the interface (R51). -/
inductive DriverOp where
  /-- `WR`: a register-port write. -/
  | write (bytes off : Nat) (w : Word)
  /-- `RD`: a register-port read. -/
  | read (bytes off : Nat)
  /-- `WAIT`: read STATUS again and again until BUSY is 0 (R93). -/
  | wait
  /-- The driver stores a byte into the payload memory (R14, R66). -/
  | store (a : Word) (b : Byte)
  deriving DecidableEq, Repr

/-- Whose move is next (00_scope.md R14; log entry 6). -/
inductive Turn where
  /-- The driver makes its next operation. -/
  | driver
  /-- The memory, the sink and the engine become as ready as `r` says, and the engine goes on. -/
  | env (r : Readiness)
  /-- Another agent stores a byte into the payload memory (R14, R63). -/
  | store (a : Word) (b : Byte)
  /-- The platform asserts the reset input (70_reset_and_hazards.md R230, R231). -/
  | reset
  deriving DecidableEq, Repr

/-- The payload memory: (address, byte) pairs in one canonical form (`Memory.wf` in Machine/Ops.lean). -/
abbrev Memory := List Host.Cell

/-- The machine. The first eight fields are the block's state of 10_state.md R38, the next three its
environment's, the last four the model's own. -/
structure State where
  /-- STATUS.BUSY (R23). -/
  busy      : Bool
  /-- STATUS.ERR_OPCODE (R24). -/
  errOpcode : Bool
  /-- STATUS.ERR_BUSY (R25). -/
  errBusy   : Bool
  /-- ARG0 (R27). -/
  arg0      : Word
  /-- ARG1 (R28). -/
  arg1      : Word
  /-- RESULT (R29). -/
  result    : Word
  /-- ACC (R30). -/
  acc       : Word
  /-- The latches and the progress of the command in flight, if there is one (R33; log entry 11). -/
  inflight  : Option InFlight
  /-- `PMEM` (20_memory.md R55). -/
  pmem      : Memory
  /-- `OUT`, oldest event first (20_memory.md R59). -/
  out       : List OutEvent
  /-- How many of the events of `OUT` the sink has acknowledged as physically sent (20_memory.md R61; log entry 13). -/
  sentLen   : Nat
  /-- How far the environment goes along (log entry 4). -/
  ready     : Readiness
  /-- What the driver has still to do, next operation first (log entry 6). -/
  driver    : List DriverOp
  /-- Whose moves are next; with none left the driver moves (log entry 6). -/
  sched     : List Turn
  /-- The values the driver's reads returned, oldest first (20_memory.md R52; log entry 6). -/
  reads     : List Word
  deriving DecidableEq, Repr

/-- The reasons the machine stops with a fault. -/
inductive Fault where
  /-- Raised by a store to payload memory (`storeByte`) into the range that the CRC_BUF or CHUNK in flight reads
  (70_reset_and_hazards.md R237, R241). Safe: the model gives no meaning where the hardware gives some bytes. -/
  | payloadRace
  deriving DecidableEq, Repr

/-- The reasons the machine gives no meaning. -/
inductive Refusal where
  /-- An instruction without a meaning; raised by no arm of this model. Safe. -/
  | notModelled (mnemonic : String)
  /-- Raised by the register port (`portWrite`, `portRead`) for an access that is not 4 bytes wide or not at a
  multiple of 4 (20_memory.md R51, R241). Safe: the spec says a model refuses it. -/
  | notWordAccess
  /-- Raised by the register port for an aligned 4-byte access outside 0x00..0x1C, which is no access of the port
  (20_memory.md R51; log entry 10). Safe. -/
  | outsideWindow
  deriving DecidableEq, Repr

/-- The environment that never holds back, as the test vectors assume (95_test_vectors.md; log entry 4). -/
def Readiness.free : Readiness := ⟨.unlimited, .unlimited, .unlimited, .unlimited⟩

/-- The machine right after reset (70_reset_and_hazards.md R230), at the start of a run: `OUT` is empty (R59),
no byte of the payload memory is listed (log entry 3), and the environment is ready and has nothing to do
(log entries 4, 6, 13). -/
def State.reset : State where
  busy := false
  errOpcode := false
  errBusy := false
  arg0 := 0x00000000#32
  arg1 := 0x00000000#32
  result := 0x00000000#32
  acc := 0xFFFFFFFF#32
  inflight := none
  pmem := []
  out := []
  sentLen := 0
  ready := Readiness.free
  driver := []
  sched := []
  reads := []

end Sys2Proof.Machine
end

