-- ==== Sys2Proof/Machine/Flags.lean ====
section
/-! DEFINITION. STATUS and its three flags (10_state.md R22 to R26, R36): how it reads, what a write does, and
what sets and clears BUSY. No flag follows from a computed value (R36). -/

namespace Sys2Proof.Machine

/-- What a read of STATUS returns: `zext_32(ERR_BUSY : ERR_OPCODE : BUSY)` (20_memory.md R52). -/
def statusWord (s : State) : Word :=
  (BitVec.ofBool s.errBusy ++ BitVec.ofBool s.errOpcode ++ BitVec.ofBool s.busy : BitVec 3).setWidth 32

/-- A write of STATUS: bit 1 clears ERR_OPCODE, bit 2 clears ERR_BUSY, the other bits are ignored
(20_memory.md R53, 10_state.md R22, R26). This is the return from an error (60_exceptions.md R206). -/
def writeStatus (w : Word) (s : State) : State :=
  { s with
    errOpcode := s.errOpcode && !w.getLsbD 1
    errBusy := s.errBusy && !w.getLsbD 2 }

/-- BUSY becomes 1 at acceptance (10_state.md R23). -/
def setBusy (s : State) : State := { s with busy := true }

/-- BUSY becomes 0 at completion (10_state.md R23). -/
def clearBusy (s : State) : State := { s with busy := false }

end Sys2Proof.Machine
end

