-- ==== Sys2Proof/Machine/Operands.lean ====
section
/-! DEFINITION. The operands a command takes from its latches LA0 and LA1 (30_encoding.md R83): unsigned fields
taken as they stand; the bits no field names are neither used nor checked (R84). -/

namespace Sys2Proof.Machine

/-- CRC_FEED: `b = LA0[7:0]` (R83). -/
def feedByte (la0 : Word) : Byte := la0.extractLsb' 0 8

/-- CRC_BUF: `a = LA0[31:0]` (R83). -/
def bufAddr (la0 : Word) : Word := la0

/-- CRC_BUF: `n = LA1[31:0]` (R83). -/
def bufCount (la1 : Word) : Nat := la1.toNat

/-- TBL_READ: `i = LA0[7:0]` (R83). -/
def tblIndex (la0 : Word) : Byte := la0.extractLsb' 0 8

/-- PUT16: `v = LA0[15:0]` (R83). -/
def put16Value (la0 : Word) : Half := la0.extractLsb' 0 16

/-- PUT32: `v = LA0[31:0]` (R83). -/
def put32Value (la0 : Word) : Word := la0

/-- HDR: `total_size = LA0[31:0]` (R83). -/
def hdrTotalSize (la0 : Word) : Word := la0

/-- HDR: `chunk_size = LA1[15:0]` (R83). -/
def hdrChunkSize (la1 : Word) : Half := la1.extractLsb' 0 16

/-- HDR: `total_chunks = LA1[31:16]` (R83). -/
def hdrTotalChunks (la1 : Word) : Half := la1.extractLsb' 16 16

/-- CHUNK: `a = LA0[31:0]`, the payload address of the chunk's first byte (R83). -/
def chunkAddr (la0 : Word) : Word := la0

/-- CHUNK: `chunk_index = LA1[15:0]` (R83). -/
def chunkIndex (la1 : Word) : Half := la1.extractLsb' 0 16

/-- CHUNK: `payload_len = LA1[31:16]` (R83). -/
def chunkLen (la1 : Word) : Half := la1.extractLsb' 16 16

end Sys2Proof.Machine
end

