-- ==== Sys2Proof/Machine/Packets.lean ====
section
/-! DEFINITION. The little-endian encoders and the wire packets (30_encoding.md R86 to R91, 20_memory.md R62). -/

namespace Sys2Proof.Machine

/-- `LE16(v) = [v[7:0], v[15:8]]` (R86). -/
def le16 (v : Half) : List Byte := [v.extractLsb' 0 8, v.extractLsb' 8 8]

/-- `LE32(v) = [v[7:0], v[15:8], v[23:16], v[31:24]]` (R87). -/
def le32 (v : Word) : List Byte :=
  [v.extractLsb' 0 8, v.extractLsb' 8 8, v.extractLsb' 16 8, v.extractLsb' 24 8]

/-- The magic marker at the start of every packet, `LE32(MAGIC)` (R91). -/
def marker : List Byte := le32 Config.magic

/-- `HeaderBytes(ts, cs, tc)` (R88). -/
def headerBytes (ts : Word) (cs tc : Half) : List Byte :=
  marker ++ [Config.tagHeader] ++ le32 ts ++ le16 cs ++ le16 tc

/-- The 13 bytes of a chunk packet before its payload (R89, R151). -/
def chunkHead (ci len : Half) (crc : Word) : List Byte :=
  marker ++ [Config.tagChunk] ++ le16 ci ++ le16 len ++ le32 crc

/-- `ChunkBytes(ci, data)` (R89). -/
def chunkBytes (ci : Half) (data : List Byte) : List Byte :=
  chunkHead ci (BitVec.ofNat 16 data.length) (crc32 data) ++ data

/-- `EmitAll(xs)` as output events: one `Byte` event per byte, in list order (00_scope.md R11, R9). -/
def byteEvents (xs : List Byte) : List OutEvent := xs.map OutEvent.byte

end Sys2Proof.Machine
end

