-- ==== Sys2Proof/Machine/Ops.lean ====
section
/-! DEFINITION. The named operations over the payload memory, the registers, the output stream and the command in
flight, and the one operation that raises an error (60_exceptions.md). -/

namespace Sys2Proof.Machine

/-- What an unlisted address of the payload memory reads as (log entry 3). -/
def Memory.blank : Byte := 0x00#8

/-- The byte at an address given as a number. -/
def Memory.readNat : Memory → Nat → Byte
  | [], _ => Memory.blank
  | (k, b) :: m, a => if k = a then b else Memory.readNat m a

/-- `PMemRead(a)` (20_memory.md R55). -/
def Memory.read (m : Memory) (a : Word) : Byte := Memory.readNat m a.toNat

/-- Put a byte at an address given as a number, keeping the canonical form. -/
def Memory.writeNat : Memory → Nat → Byte → Memory
  | [], a, b => if b = Memory.blank then [] else [(a, b)]
  | (k, c) :: m, a, b =>
    if k < a then (k, c) :: Memory.writeNat m a b
    else if k = a then if b = Memory.blank then m else (a, b) :: m
    else if b = Memory.blank then (k, c) :: m else (a, b) :: (k, c) :: m

/-- A store of one byte by the driver or another agent (00_scope.md R14); the block itself never writes. -/
def Memory.write (m : Memory) (a : Word) (b : Byte) : Memory := Memory.writeNat m a.toNat b

/-- The canonical form from address `lo` on: addresses strictly rising and below 2^32, no entry a blank. -/
def Memory.wfFrom : Nat → Memory → Bool
  | _, [] => true
  | lo, (k, b) :: m =>
    decide (lo ≤ k) && decide (k < 2 ^ 32) && decide (b ≠ Memory.blank) && Memory.wfFrom (k + 1) m

/-- The canonical form of the payload memory, so that equal memories are equal lists. -/
def Memory.wf (m : Memory) : Bool := Memory.wfFrom 0 m

/-- The bytes at `a +32 k` for `k = 0 .. n - 1`, ascending, addresses modulo 2^32 (20_memory.md R56, R58). -/
def Memory.bytes (m : Memory) (a : Word) (n : Nat) : List Byte :=
  (List.range n).map fun k => m.read (a + BitVec.ofNat 32 k)

/-- ARG0 becomes `w` (10_state.md R27). -/
def setArg0 (w : Word) (s : State) : State := { s with arg0 := w }

/-- ARG1 becomes `w` (10_state.md R28). -/
def setArg1 (w : Word) (s : State) : State := { s with arg1 := w }

/-- The payload memory becomes `m`. -/
def setPmem (m : Memory) (s : State) : State := { s with pmem := m }

/-- The environment becomes as ready as `r` says (log entry 4). -/
def setReady (r : Readiness) (s : State) : State := { s with ready := r }

/-- The driver has `ops` still to do (log entry 6). -/
def setDriver (ops : List DriverOp) (s : State) : State := { s with driver := ops }

/-- The turns `ts` are next (log entry 6). -/
def setSched (ts : List Turn) (s : State) : State := { s with sched := ts }

/-- The two causes of an error and their codes, the STATUS bit numbers (60_exceptions.md R201). -/
inductive ErrorCause where
  /-- ERR_OPCODE, code 1: an illegal word was written while BUSY was 0 (R203). -/
  | errOpcode
  /-- ERR_BUSY, code 2: a word was written while BUSY was 1 (R202). -/
  | errBusy
  deriving DecidableEq, Repr

/-- `raise Error(cause)` (00_scope.md R12, 60_exceptions.md R202, R203, R205): set the cause's STATUS bit, discard
the word, change nothing else; nothing is saved and control goes nowhere. -/
def raiseError (cause : ErrorCause) (s : State) : State :=
  match cause with
  | .errOpcode => { s with errOpcode := true }
  | .errBusy => { s with errBusy := true }

/-- `Emit(b)` once the sink accepts the byte (20_memory.md R59). -/
def emitByte (b : Byte) (s : State) : State := { s with out := s.out ++ [.byte b] }

/-- The request of `Flush()`: the event is appended here, before the acknowledgment (20_memory.md R61; log entry 12). -/
def requestFlush (s : State) : State := { s with out := s.out ++ [.flush] }

/-- The sink's acknowledgment of a flush: everything in `OUT` so far is sent (20_memory.md R61). -/
def ackFlush (s : State) : State := { s with sentLen := s.out.length }

/-- Acceptance (30_encoding.md R95): latch the opcode and both operand registers and set BUSY, in one step;
`start` is the command's first progress as a function of ACC, LA0 and LA1. -/
def accept (i : Instr) (start : Word → Word → Word → Progress) (s : State) : State :=
  setBusy { s with inflight := some ⟨opcode i, s.arg0, s.arg1, start s.acc s.arg0 s.arg1⟩ }

/-- Completion (30_encoding.md R96): write RESULT and ACC as the command's rule gives and clear BUSY, in one step. -/
def complete (wr : Writes) (s : State) : State :=
  clearBusy
    { s with
      result := wr.result.getD s.result
      acc := wr.acc.getD s.acc
      inflight := none }

/-- How many payload bytes a command reads (41_crc.md R106, 43_framer.md R151); only two commands read (20_memory.md R55). -/
def payloadCountOf (i : Instr) (la1 : Word) : Nat :=
  match i with
  | .crcInit => 0
  | .crcFeed => 0
  | .crcBuf => bufCount la1
  | .tblRead => 0
  | .put16 => 0
  | .put32 => 0
  | .hdr => 0
  | .chunk => (chunkLen la1).toNat

/-- Where a command's payload range begins (30_encoding.md R83). -/
def payloadBaseOf (i : Instr) (la0 : Word) : Word :=
  match i with
  | .crcInit => 0#32
  | .crcFeed => 0#32
  | .crcBuf => bufAddr la0
  | .tblRead => 0#32
  | .put16 => 0#32
  | .put32 => 0#32
  | .hdr => 0#32
  | .chunk => chunkAddr la0

/-- How many payload bytes the command in flight reads; an opcode that is none of R81's reads nothing. -/
def InFlight.count (f : InFlight) : Nat :=
  match decodeOpcode f.lop with
  | some i => payloadCountOf i f.la1
  | none => 0

/-- Where the payload range of the command in flight begins. -/
def InFlight.base (f : InFlight) : Word :=
  match decodeOpcode f.lop with
  | some i => payloadBaseOf i f.la0
  | none => 0#32

/-- Address `a` is one of `base +32 k` for `k < count` (20_memory.md R56, 70_reset_and_hazards.md R237). -/
def InFlight.owns (f : InFlight) (a : Word) : Bool := decide ((a - f.base).toNat < f.count)

/-- A store to payload memory by the driver or another agent (00_scope.md R14); into the range of the command in
flight it is the model fault `PayloadRace` (70_reset_and_hazards.md R237; log entry 9). -/
def storeByte (a : Word) (b : Byte) (s : State) : Host.Outcome State Fault Refusal :=
  if s.inflight.any (fun f => f.owns a) then .fault .payloadRace
  else .next (setPmem (s.pmem.write a b) s)

/-- The reset input (70_reset_and_hazards.md R230, R231): every register at its reset value and no command in
flight, whatever the block was doing; `OUT`, the payload memory and the rest of the environment stay. -/
def resetBlock (s : State) : State :=
  { s with
    busy := false
    errOpcode := false
    errBusy := false
    arg0 := 0x00000000#32
    arg1 := 0x00000000#32
    result := 0x00000000#32
    acc := 0xFFFFFFFF#32
    inflight := none }

end Sys2Proof.Machine
end

