-- ==== Sys2Proof/Machine/Engine.lean ====
section
/-! DEFINITION. How the engine runs the command in flight (30_encoding.md R95, R96, 70_reset_and_hazards.md R240):
small steps, each of which needs one agent to act, and `advance`, which takes them for as long as the
environment lets it. -/

namespace Sys2Proof.Machine

/-- The agent acts once more, if it still does (log entry 4). -/
def Credit.spend : Credit → Option Credit
  | .unlimited => some .unlimited
  | .upTo 0 => none
  | .upTo (n + 1) => some (.upTo n)

/-- CRC_BUF after its last read, with `c` in the checksum register: nothing to emit, ACC and RESULT to write
(41_crc.md R106). -/
def afterReadCrcBuf (c : Word) : Progress :=
  .emitting [] ⟨some (c ^^^ Config.crcFinalXor), some c⟩

/-- CHUNK after its last read, with `c` in its own checksum register and the payload in `data`: the packet, the
flush, and RESULT to write (43_framer.md R151 to R153). -/
def afterReadChunk (la1 : Word) (c : Word) (data : List Byte) : Progress :=
  let crc := c ^^^ Config.crcFinalXor
  .emitting
    (byteEvents (chunkHead (chunkIndex la1) (chunkLen la1) crc) ++ byteEvents data ++ [.flush])
    ⟨some crc, none⟩

/-- What a command does after its last payload read; the six that read nothing have nothing left. -/
def afterReadOf (i : Instr) (la1 : Word) (c : Word) (data : List Byte) : Progress :=
  match i with
  | .crcInit => .emitting [] ⟨none, none⟩
  | .crcFeed => .emitting [] ⟨none, none⟩
  | .crcBuf => afterReadCrcBuf c
  | .tblRead => .emitting [] ⟨none, none⟩
  | .put16 => .emitting [] ⟨none, none⟩
  | .put32 => .emitting [] ⟨none, none⟩
  | .hdr => .emitting [] ⟨none, none⟩
  | .chunk => afterReadChunk la1 c data

/-- What the command in flight does after its last payload read. -/
def InFlight.afterRead (f : InFlight) (c : Word) (data : List Byte) : Progress :=
  match decodeOpcode f.lop with
  | some i => afterReadOf i f.la1 c data
  | none => .emitting [] ⟨none, none⟩

/-- The progress, gone on from reading as soon as every payload byte has been read. -/
def InFlight.current (f : InFlight) : Progress :=
  match f.progress with
  | .reading k c buf => if k < f.count then .reading k c buf else f.afterRead c buf
  | .emitting todo wr => .emitting todo wr
  | .awaitingAck todo wr => .awaitingAck todo wr

/-- The command in flight goes on to progress `p`. -/
def goOn (f : InFlight) (p : Progress) (s : State) : State :=
  { s with inflight := some { f with progress := p } }

/-- One payload read (41_crc.md R106, 43_framer.md R151): the byte at `base +32 k` goes through the checksum step;
CHUNK also keeps it (20_memory.md R58; log entry 7). -/
def readNext (f : InFlight) (k : Nat) (c : Word) (buf : List Byte) (s : State) : State :=
  let b := s.pmem.read (f.base + BitVec.ofNat 32 k)
  goOn f (.reading (k + 1) (crcStep c b) (buf ++ [b])) s

/-- One small step of the engine, or none where it has no enabled step: no command is in flight, or the agent the
step needs holds back (20_memory.md R60, 70_reset_and_hazards.md R238). -/
def engineStep (s : State) : Option State :=
  match s.inflight with
  | none => none
  | some f =>
    match f.current with
    | .reading k c buf =>
      s.ready.memory.spend.map fun m => readNext f k c buf (setReady { s.ready with memory := m } s)
    | .emitting [] wr =>
      s.ready.engine.spend.map fun e => complete wr (setReady { s.ready with engine := e } s)
    | .emitting (.byte b :: todo) wr =>
      s.ready.sink.spend.map fun k =>
        goOn f (.emitting todo wr) (emitByte b (setReady { s.ready with sink := k } s))
    | .emitting (.flush :: todo) wr =>
      s.ready.engine.spend.map fun e =>
        goOn f (.awaitingAck todo wr) (requestFlush (setReady { s.ready with engine := e } s))
    | .awaitingAck todo wr =>
      s.ready.flush.spend.map fun a =>
        goOn f (.emitting todo wr) (ackFlush (setReady { s.ready with flush := a } s))

/-- A bound on the small steps a progress still has before it (70_reset_and_hazards.md R240). -/
def Progress.work (count : Nat) : Progress → Nat
  | .reading k _ buf => 3 * (count - k) + 2 * buf.length + 30
  | .emitting todo _ => 2 * todo.length + 1
  | .awaitingAck todo _ => 2 * todo.length + 2

/-- A bound on the small steps the command in flight still has before it. -/
def engineWork (s : State) : Nat :=
  match s.inflight with
  | none => 0
  | some f => f.current.work f.count

/-- At most `n` small steps of the engine. -/
def runEngine : Nat → State → State
  | 0, s => s
  | n + 1, s =>
    match engineStep s with
    | some s' => runEngine n s'
    | none => s

/-- The engine goes on until it has no enabled step (log entry 5). -/
def advance (s : State) : State := runEngine (engineWork s) s

/-- A legal command word presented to the engine (30_encoding.md R95): while BUSY is 1 it is discarded and raises
ERR_BUSY (60_exceptions.md R202); otherwise it is accepted, and the engine goes on as far as its environment
lets it (log entries 5, 14). -/
def launch (i : Instr) (start : Word → Word → Word → Progress) (s : State) :
    Host.Outcome State Fault Refusal :=
  if s.busy then .next (raiseError .errBusy s) else .next (advance (accept i start s))

end Sys2Proof.Machine
end

