-- ==== Sys2Proof/Machine/Checksum.lean ====
section
/-! DEFINITION. The checksum family (41_crc.md R104 to R107): CRC_INIT, CRC_FEED, CRC_BUF, TBL_READ. Each meaning is
the command's first progress after acceptance, given to `launch`. -/

namespace Sys2Proof.Machine

/-- CRC_INIT (R104): nothing to read or emit; ACC becomes 0xFFFFFFFF and RESULT 0. -/
def startCrcInit (_acc _la0 _la1 : Word) : Progress :=
  .emitting [] ⟨some (Config.crcInitial ^^^ Config.crcFinalXor), some Config.crcInitial⟩

/-- CRC_INIT (R104). -/
def execCrcInit (s : State) : Host.Outcome State Fault Refusal := launch .crcInit startCrcInit s

/-- CRC_FEED (R105): one byte step from ACC (log entry 8). -/
def startCrcFeed (acc la0 _la1 : Word) : Progress :=
  let c := crcStep acc (feedByte la0)
  .emitting [] ⟨some (c ^^^ Config.crcFinalXor), some c⟩

/-- CRC_FEED (R105). -/
def execCrcFeed (s : State) : Host.Outcome State Fault Refusal := launch .crcFeed startCrcFeed s

/-- CRC_BUF (R106): the range is folded from ACC; what follows the last read is `afterReadCrcBuf`. -/
def startCrcBuf (acc _la0 _la1 : Word) : Progress := .reading 0 acc []

/-- CRC_BUF (R106). -/
def execCrcBuf (s : State) : Host.Outcome State Fault Refusal := launch .crcBuf startCrcBuf s

/-- TBL_READ (R107): RESULT becomes the entry; ACC stays. -/
def startTblRead (_acc la0 _la1 : Word) : Progress := .emitting [] ⟨some (crcT (tblIndex la0)), none⟩

/-- TBL_READ (R107). -/
def execTblRead (s : State) : Host.Outcome State Fault Refusal := launch .tblRead startTblRead s

end Sys2Proof.Machine
end

