-- ==== Sys2Proof/Machine/Encoder.lean ====
section
/-! DEFINITION. The little-endian encoder family (42_encoder.md R130 to R132): PUT16 and PUT32. -/

namespace Sys2Proof.Machine

/-- PUT16 (R130): two bytes, low byte first; nothing is written at completion. -/
def startPut16 (_acc la0 _la1 : Word) : Progress :=
  .emitting (byteEvents (le16 (put16Value la0))) ⟨none, none⟩

/-- PUT16 (R130). -/
def execPut16 (s : State) : Host.Outcome State Fault Refusal := launch .put16 startPut16 s

/-- PUT32 (R131): four bytes, least significant first; nothing is written at completion. -/
def startPut32 (_acc la0 _la1 : Word) : Progress :=
  .emitting (byteEvents (le32 (put32Value la0))) ⟨none, none⟩

/-- PUT32 (R131). -/
def execPut32 (s : State) : Host.Outcome State Fault Refusal := launch .put32 startPut32 s

end Sys2Proof.Machine
end

