-- ==== Sys2Proof/Machine/Framer.lean ====
section
/-! DEFINITION. The packet framer family (43_framer.md R150 to R154): HDR and CHUNK. Neither checks its operands (R154). -/

namespace Sys2Proof.Machine

/-- HDR (R150): the 13 bytes of the header packet; nothing is written at completion and nothing is flushed. -/
def startHdr (_acc la0 la1 : Word) : Progress :=
  .emitting (byteEvents (headerBytes (hdrTotalSize la0) (hdrChunkSize la1) (hdrTotalChunks la1))) ⟨none, none⟩

/-- HDR (R150). -/
def execHdr (s : State) : Host.Outcome State Fault Refusal := launch .hdr startHdr s

/-- CHUNK (R151, R152): the payload is read through a checksum of its own, from the initial value; what follows
the last read is `afterReadChunk`. -/
def startChunk (_acc _la0 _la1 : Word) : Progress := .reading 0 Config.crcInitial []

/-- CHUNK (R151). -/
def execChunk (s : State) : Host.Outcome State Fault Refusal := launch .chunk startChunk s

end Sys2Proof.Machine
end

