-- ==== Sys2Proof/Machine/Dispatch.lean ====
section
/-! DEFINITION. The meaning of each command (30_encoding.md R81, R95), one arm per constructor. -/

namespace Sys2Proof.Machine

-- R95: "execute the rule of LOP (rule R81) on LA0, LA1"
def exec (i : Instr) (s : State) : Host.Outcome State Fault Refusal :=
  match i with
  | .crcInit => Sys2Proof.Machine.execCrcInit s
  | .crcFeed => Sys2Proof.Machine.execCrcFeed s
  | .crcBuf => Sys2Proof.Machine.execCrcBuf s
  | .tblRead => Sys2Proof.Machine.execTblRead s
  | .put16 => Sys2Proof.Machine.execPut16 s
  | .put32 => Sys2Proof.Machine.execPut32 s
  | .hdr => Sys2Proof.Machine.execHdr s
  | .chunk => Sys2Proof.Machine.execChunk s

end Sys2Proof.Machine
end

