-- ==== Sys2Proof/Machine/Port.lean ====
section
/-! DEFINITION. The register port (20_memory.md R51 to R54) and the driver's moves on it. Each access is one
indivisible step; the port never stalls the driver and returns no error (R54). -/

namespace Sys2Proof.Machine

/-- What a read of the word at offset `off` returns (20_memory.md R52): CMD and the reserved words read 0. -/
def readReg (off : Nat) (s : State) : Word :=
  if off = 0x04 then statusWord s
  else if off = 0x08 then s.arg0
  else if off = 0x0C then s.arg1
  else if off = 0x10 then s.result
  else if off = 0x14 then s.acc
  else 0x00000000#32

/-- A write of CMD presents the word to the engine (30_encoding.md R95): a legal word goes to its command, which
turns it away while BUSY is 1; an illegal one raises ERR_BUSY while BUSY is 1, else ERR_OPCODE (60_exceptions.md
R202 to R204). -/
def writeCmd (w : Word) (s : State) : Host.Outcome State Fault Refusal :=
  match decode w with
  | .command i => exec i s
  | .illegal _ => .next (raiseError (if s.busy then .errBusy else .errOpcode) s)

/-- The effect of a write of `w` to the word at offset `off` (20_memory.md R53): RESULT, ACC and the reserved words
ignore it. -/
def writeReg (off : Nat) (w : Word) (s : State) : Host.Outcome State Fault Refusal :=
  if off = 0x00 then writeCmd w s
  else if off = 0x04 then .next (writeStatus w s)
  else if off = 0x08 then .next (setArg0 w s)
  else if off = 0x0C then .next (setArg1 w s)
  else .next s

/-- Why an access is none of the register port's (20_memory.md R51; log entry 10), or nothing if it is one. -/
def portRefusal (bytes off : Nat) : Option Refusal :=
  if bytes ≠ 4 ∨ off % 4 ≠ 0 then some .notWordAccess
  else if 0x1C < off then some .outsideWindow
  else none

/-- A register-port write of `bytes` bytes at offset `off` (20_memory.md R51, R53). -/
def portWrite (bytes off : Nat) (w : Word) (s : State) : Host.Outcome State Fault Refusal :=
  match portRefusal bytes off with
  | some r => .refused r
  | none => writeReg off w s

/-- The driver receives the value `v` (20_memory.md R52). -/
def recordRead (v : Word) (s : State) : State := { s with reads := s.reads ++ [v] }

/-- A register-port read of `bytes` bytes at offset `off` (20_memory.md R51, R52): it changes nothing but what the
driver has received. -/
def portRead (bytes off : Nat) (s : State) : Host.Outcome State Fault Refusal :=
  match portRefusal bytes off with
  | some r => .refused r
  | none => .next (recordRead (readReg off s) s)

/-- One poll of `WAIT` (30_encoding.md R93): read STATUS; with BUSY 0 the driver goes on to `rest`, with BUSY 1 it
will poll again and the engine goes on meanwhile (log entry 19). -/
def pollStatus (rest : List DriverOp) (s : State) : State :=
  if s.busy then advance (recordRead (statusWord s) s)
  else setDriver rest (recordRead (statusWord s) s)

/-- The driver's next operation; a driver with nothing to do leaves the engine to go on. -/
def driverTurn (s : State) : Host.Outcome State Fault Refusal :=
  match s.driver with
  | [] => .next (advance s)
  | .write bytes off w :: rest => portWrite bytes off w (setDriver rest s)
  | .read bytes off :: rest => portRead bytes off (setDriver rest s)
  | .wait :: rest => .next (pollStatus rest s)
  | .store a b :: rest => storeByte a b (setDriver rest s)

/-- The environment becomes as ready as `r` says, and the engine goes on (20_memory.md R60, R61). -/
def envTurn (r : Readiness) (s : State) : State := advance (setReady r s)

/-- One move of one agent (00_scope.md R14; log entry 6). -/
def takeTurn (t : Turn) (s : State) : Host.Outcome State Fault Refusal :=
  match t with
  | .driver => driverTurn s
  | .env r => .next (envTurn r s)
  | .store a b => storeByte a b s
  | .reset => .next (resetBlock s)

/-- How the program's next command word reaches the engine: the driver's next operation is the 32-bit write of `w`
to CMD, it is the driver's turn, and no command is in flight (log entries 6, 16). -/
def presentWord (w : Word) (s : State) : State :=
  { s with
    busy := false
    inflight := none
    driver := .write 4 0x00 w :: s.driver
    sched := .driver :: s.sched }

end Sys2Proof.Machine
end

