-- ==== Sys2Proof/Machine/Step.lean ====
section
/-! DEFINITION. One step of the machine: the next agent of the schedule moves (00_scope.md R14). The block has no
program counter and fetches nothing; the next command is whatever word the driver writes to CMD next (10_state.md R35). -/

namespace Sys2Proof.Machine

/-- One step: the schedule's next turn, or the driver's if the schedule is empty. -/
def step (s : State) : Host.Outcome State Fault Refusal :=
  match s.sched with
  | [] => takeTurn .driver s
  | t :: rest => takeTurn t (setSched rest s)

/-- `s` with the command word of value `w` (its `nbits` low bits) as the driver's next write of CMD, so that the
very next step presents exactly that word to an idle engine (log entries 6, 16). -/
def State.withFetchWord (s : State) (nbits w : Nat) : State :=
  presentWord (BitVec.ofNat 32 (w % 2 ^ nbits)) s

end Sys2Proof.Machine
end

