-- ==== Sys2Proof/Machine/Driver.lean ====
section
/-! DEFINITION. The driver's side: the assembly syntax and pseudo-instructions (30_encoding.md R92, R93), the bus
address of a register (00_scope.md R5), and the reference sequence of one transfer with the bytes it must put
out (43_framer.md R155 to R161). The block checks none of it (R154). -/

namespace Sys2Proof.Machine

/-- The registers a driver line may name (R92). -/
inductive Reg where
  | cmd
  | status
  | arg0
  | arg1
  | result
  | acc
  deriving DecidableEq, Repr

/-- The offset of a register from `REG_BASE` (10_state.md R20). -/
def Reg.offset (r : Reg) : Nat :=
  match r with
  | .cmd => 0x00
  | .status => 0x04
  | .arg0 => 0x08
  | .arg1 => 0x0C
  | .result => 0x10
  | .acc => 0x14

/-- The address of a register on the driver's bus (00_scope.md R5, 20_memory.md R67). -/
def Reg.address (r : Reg) : Nat := Config.regBase + r.offset

/-- The offset in the register window of a bus address, if it lies there (20_memory.md R67). -/
def busOffset (addr : Nat) : Option Nat :=
  if Config.regBase ≤ addr ∧ addr < Config.regBase + 32 then some (addr - Config.regBase) else none

/-- `WR <reg>, <value>` (R92). -/
def wr (r : Reg) (v : Word) : DriverOp := .write 4 r.offset v

/-- `RD <reg>` (R92). -/
def rd (r : Reg) : DriverOp := .read 4 r.offset

/-- `<MNEMONIC>`: `WR CMD` of the command's word (R92). -/
def issue (i : Instr) : DriverOp := wr .cmd (encode i)

/-- `(hi << 16) | lo` in 32 bits, as `HEADER` and `SEND` compute ARG1 (R93). -/
def packArg1 (hi lo : Word) : Word := (hi <<< 16) ||| lo

/-- `CLRERR` (R93). -/
def clrErr : List DriverOp := [wr .status 0x00000006#32]

/-- `FEED b` (R93). -/
def feed (b : Word) : List DriverOp := [wr .arg0 b, issue .crcFeed, .wait]

/-- `CRC32 a, n` (R93). -/
def crc32Seq (a n : Word) : List DriverOp :=
  [wr .arg0 a, wr .arg1 n, issue .crcInit, .wait, issue .crcBuf, .wait, rd .result]

/-- `TBL i` (R93). -/
def tbl (i : Word) : List DriverOp := [wr .arg0 i, issue .tblRead, .wait, rd .result]

/-- `P16 v` (R93). -/
def p16 (v : Word) : List DriverOp := [wr .arg0 v, issue .put16, .wait]

/-- `P32 v` (R93). -/
def p32 (v : Word) : List DriverOp := [wr .arg0 v, issue .put32, .wait]

/-- `HEADER ts, cs, tc` (R93). -/
def header (ts cs tc : Word) : List DriverOp := [wr .arg0 ts, wr .arg1 (packArg1 tc cs), issue .hdr, .wait]

/-- `SEND a, ci, n` (R93). -/
def send (a ci n : Word) : List DriverOp := [wr .arg0 a, wr .arg1 (packArg1 n ci), issue .chunk, .wait]

/-- `ceil_div(a, b)` (00_scope.md R8). -/
def ceilDiv (a b : Nat) : Nat := (a + b - 1) / b

/-- The number of chunks of a frame of `len` bytes (43_framer.md R155). -/
def chunkCount (len size : Nat) : Nat := ceilDiv len size

/-- `off_i = i * C` (43_framer.md R157). -/
def chunkOffset (size i : Nat) : Nat := i * size

/-- `n_i = min(C, L - off_i)` (43_framer.md R157). -/
def chunkPayloadLen (len size i : Nat) : Nat := min size (len - chunkOffset size i)

/-- The driver's accesses for chunk `i` (43_framer.md R159). -/
def sendChunk (base : Word) (len size i : Nat) : List DriverOp :=
  send (base + BitVec.ofNat 32 (chunkOffset size i)) (BitVec.ofNat 32 i)
    (BitVec.ofNat 32 (chunkPayloadLen len size i))

/-- The reference driver sequence `Transfer(B, L, C)` (43_framer.md R159): nothing where its requirement fails or
`N > 65535`; the pause between chunks is no access (R164; log entry 18). -/
def transfer (base : Word) (len size : Nat) : Option (List DriverOp) :=
  if 1 ≤ size ∧ size ≤ 65535 ∧ len < 2 ^ 32 ∧ chunkCount len size ≤ 65535 then
    some
      (header (BitVec.ofNat 32 len) (BitVec.ofNat 32 size) (BitVec.ofNat 32 (chunkCount len size)) ++
        (List.range (chunkCount len size)).flatMap (sendChunk base len size))
  else none

/-- The payload of chunk `i` of the frame at `base` (43_framer.md R157, R160). -/
def chunkData (m : Memory) (base : Word) (len size i : Nat) : List Byte :=
  m.bytes (base + BitVec.ofNat 32 (chunkOffset size i)) (chunkPayloadLen len size i)

/-- The output events of chunk `i` of a transfer: its packet and one flush (43_framer.md R160). -/
def chunkEvents (m : Memory) (base : Word) (len size i : Nat) : List OutEvent :=
  byteEvents (chunkBytes (BitVec.ofNat 16 i) (chunkData m base len size i)) ++ [.flush]

/-- The output events of one transfer (43_framer.md R160). -/
def transferEvents (m : Memory) (base : Word) (len size : Nat) : List OutEvent :=
  byteEvents
      (headerBytes (BitVec.ofNat 32 len) (BitVec.ofNat 16 size) (BitVec.ofNat 16 (chunkCount len size))) ++
    (List.range (chunkCount len size)).flatMap (chunkEvents m base len size)

end Sys2Proof.Machine
end

