-- ==== Sys2Proof/Safety.lean ====
section
/-! DEFINITION. The terms claims are stated in: what a command puts out and writes (41_crc.md, 42_encoder.md,
43_framer.md), what it needs of its environment (70_reset_and_hazards.md R240), the invariant of the machine,
and runs of the machine. -/

namespace Sys2Proof.Machine

/-- The output events of a command, by its rule (R104 to R107, R130, R131, R150, R151). -/
def commandEvents (i : Instr) (m : Memory) (la0 la1 : Word) : List OutEvent :=
  match i with
  | .crcInit => []
  | .crcFeed => []
  | .crcBuf => []
  | .tblRead => []
  | .put16 => byteEvents (le16 (put16Value la0))
  | .put32 => byteEvents (le32 (put32Value la0))
  | .hdr => byteEvents (headerBytes (hdrTotalSize la0) (hdrChunkSize la1) (hdrTotalChunks la1))
  | .chunk =>
    byteEvents (chunkBytes (chunkIndex la1) (m.bytes (chunkAddr la0) (chunkLen la1).toNat)) ++ [.flush]

/-- What the completion of a command writes, by its rule, with `acc` in ACC before it (R104 to R107, R151). -/
def commandWrites (i : Instr) (m : Memory) (acc la0 la1 : Word) : Writes :=
  match i with
  | .crcInit => ⟨some 0x00000000#32, some 0xFFFFFFFF#32⟩
  | .crcFeed => ⟨some (crcStep acc (feedByte la0) ^^^ 0xFFFFFFFF#32), some (crcStep acc (feedByte la0))⟩
  | .crcBuf =>
    ⟨some (crcFold acc (m.bytes (bufAddr la0) (bufCount la1)) ^^^ 0xFFFFFFFF#32),
      some (crcFold acc (m.bytes (bufAddr la0) (bufCount la1)))⟩
  | .tblRead => ⟨some (crcT (tblIndex la0)), none⟩
  | .put16 => ⟨none, none⟩
  | .put32 => ⟨none, none⟩
  | .hdr => ⟨none, none⟩
  | .chunk => ⟨some (crc32 (m.bytes (chunkAddr la0) (chunkLen la1).toNat)), none⟩

/-- How often each agent must act for a command to complete (70_reset_and_hazards.md R240): the engine's own steps
(a flush request, the completion), payload reads, accepted bytes, flush acknowledgments. -/
structure Needs where
  engine : Nat
  memory : Nat
  sink   : Nat
  flush  : Nat
  deriving DecidableEq, Repr

/-- R240's counts: no environment step for CRC_INIT, CRC_FEED and TBL_READ, `n` reads for CRC_BUF, 2, 4 and 13
accepted bytes for PUT16, PUT32 and HDR, and `payload_len` reads, `13 + payload_len` bytes and one
acknowledgment for CHUNK. -/
def needs (i : Instr) (la1 : Word) : Needs :=
  match i with
  | .crcInit => ⟨1, 0, 0, 0⟩
  | .crcFeed => ⟨1, 0, 0, 0⟩
  | .crcBuf => ⟨1, bufCount la1, 0, 0⟩
  | .tblRead => ⟨1, 0, 0, 0⟩
  | .put16 => ⟨1, 0, 2, 0⟩
  | .put32 => ⟨1, 0, 4, 0⟩
  | .hdr => ⟨1, 0, 13, 0⟩
  | .chunk => ⟨2, (chunkLen la1).toNat, 13 + (chunkLen la1).toNat, 1⟩

/-- The agent still acts `n` times. -/
def Credit.covers (c : Credit) (n : Nat) : Bool :=
  match c with
  | .unlimited => true
  | .upTo m => decide (n ≤ m)

/-- The credit after `n` acts. -/
def Credit.less (c : Credit) (n : Nat) : Credit :=
  match c with
  | .unlimited => .unlimited
  | .upTo m => .upTo (m - n)

/-- The environment acts as often as `n` asks. -/
def Readiness.covers (r : Readiness) (n : Needs) : Bool :=
  r.engine.covers n.engine && r.memory.covers n.memory && r.sink.covers n.sink && r.flush.covers n.flush

/-- The environment's readiness after it has acted as often as `n` says. -/
def Readiness.less (r : Readiness) (n : Needs) : Readiness :=
  ⟨r.engine.less n.engine, r.memory.less n.memory, r.sink.less n.sink, r.flush.less n.flush⟩

/-- The command in flight has got exactly as far as its progress says: its opcode is legal; the bytes read are those
the payload memory holds and the checksum register is their fold (R101, R102, R106, R151); the events already
put out are the first ones of its rule, those left to emit are the rest; its completion will write what its rule
says; and a CHUNK with nothing left to emit has had everything acknowledged as sent (R153). -/
def Consistent (s : State) (f : InFlight) : Prop :=
  ∃ i, decodeOpcode f.lop = some i ∧
    match f.progress with
    | .reading k c buf =>
      (i = .crcBuf ∧ c = crcFold s.acc buf ∨ i = .chunk ∧ c = crcFold 0xFFFFFFFF#32 buf) ∧
        k ≤ f.count ∧ buf = s.pmem.bytes f.base k
    | .emitting todo wr =>
      wr = commandWrites i s.pmem s.acc f.la0 f.la1 ∧
        (∃ sent, commandEvents i s.pmem f.la0 f.la1 = sent ++ todo ∧ sent <:+ s.out) ∧
        (i = .chunk → todo = [] → s.sentLen = s.out.length)
    | .awaitingAck todo wr =>
      wr = commandWrites i s.pmem s.acc f.la0 f.la1 ∧
        ∃ sent, commandEvents i s.pmem f.la0 f.la1 = sent ++ [.flush] ++ todo ∧ sent ++ [.flush] <:+ s.out

/-- The invariant of the machine. -/
structure State.Inv (s : State) : Prop where
  /-- The payload memory is in its canonical form. -/
  memWf : s.pmem.wf = true
  /-- A command is in flight if and only if BUSY is 1 (10_state.md R38). -/
  busyIff : s.busy = s.inflight.isSome
  /-- The sink has acknowledged no more than was put out (20_memory.md R61). -/
  sentLe : s.sentLen ≤ s.out.length
  /-- The command in flight has got exactly as far as its progress says. -/
  consistent : ∀ f, s.inflight = some f → Consistent s f

/-- In `s` the driver's next operation is `op` and it is the driver's turn; `u` is `s` with that move taken off. -/
def Issues (s : State) (op : DriverOp) (u : State) : Prop :=
  s.driver = op :: u.driver ∧ (s.sched = .driver :: u.sched ∨ s.sched = [] ∧ u.sched = []) ∧
    s = { u with driver := s.driver, sched := s.sched }

/-- `u` with turn `x` put first in its schedule. -/
def withTurn (x : Turn) (u : State) : State := { u with sched := x :: u.sched }

/-- The environment that answers nothing at all, not even the engine's own steps. -/
def Readiness.stalled : Readiness := ⟨.upTo 0, .upTo 0, .upTo 0, .upTo 0⟩

/-- The state after `k` steps from `s`, if none of them stops. -/
def runsTo (k : Nat) (s t : State) : Prop := Sys2Proof.core.run k s = .next t

/-- `t` is reached from `s` by some number of steps. -/
def Reaches (s t : State) : Prop := ∃ k, runsTo k s t

/-- A run is safe as far as `k` steps go when none of them is the model fault `PayloadRace`
(70_reset_and_hazards.md R237: every claim takes "no `PayloadRace`" as a premise). -/
def noRaceWithin (k : Nat) (s : State) : Prop := Sys2Proof.core.run k s ≠ .fault .payloadRace

end Sys2Proof.Machine
end

