-- ==== Sys2Proof/Certificates/Slice0/Obligations.lean ====
section
/-! DEFINITION. The statements for the provers. Each docstring names the rule of spec/ it formalises. -/

open Sys2Proof Sys2Proof.Machine

/-! ### Reset (70_reset_and_hazards.md) -/

/-- R230: the reset input puts every register at its reset value and leaves no command in flight, whatever the block
was doing; the payload memory, `OUT` and the rest of the environment stay. That the acknowledged length `sentLen`
stays too is the model's choice (log entry 13). -/
def Obligations.ResetInputGivesResetValues : Prop :=
  ∀ u : State, step (withTurn .reset u) =
    .next { u with
      busy := false, errOpcode := false, errBusy := false, arg0 := 0x00000000#32, arg1 := 0x00000000#32,
      result := 0x00000000#32, acc := 0xFFFFFFFF#32, inflight := none }

/-- R231: after a reset during a command, what it had put out stays, no readiness of the environment makes the
engine put out another event of it, and RESULT and ACC stay at their reset values, not the command's. That the
acknowledged length `sentLen` stays is the model's choice (log entry 13). -/
def Obligations.ResetAbortsCommandInFlight : Prop :=
  ∀ (u : State) (r : Readiness), ∃ t v, step (withTurn .reset u) = .next t ∧ step (withTurn (.env r) t) = .next v ∧
    v.out = u.out ∧ v.sentLen = u.sentLen ∧ v.busy = false ∧ v.inflight = none ∧
    v.result = 0x00000000#32 ∧ v.acc = 0xFFFFFFFF#32

/-- R20's reset column: what the eight words read as right after reset. -/
def Obligations.RegisterWindowReadsAsResetColumn : Prop :=
  (List.range 8).map (fun k => readReg (4 * k) State.reset) =
    [0x00000000#32, 0x00000000#32, 0x00000000#32, 0x00000000#32, 0x00000000#32, 0xFFFFFFFF#32, 0x00000000#32,
      0x00000000#32]

/-! ### The invariant -/

/-- The machine right after reset meets the invariant. -/
def Obligations.ResetStateMeetsInvariant : Prop := State.reset.Inv

/-- Every step keeps the invariant: the payload memory stays canonical, BUSY is 1 exactly while a command is in
flight (R38), and the command in flight has read, folded, put out and acknowledged exactly what its rule says so
far. What has been acknowledged is the length `sentLen`, the model's choice (log entry 13). -/
def Obligations.EveryStepKeepsInvariant : Prop :=
  ∀ s t : State, s.Inv → step s = .next t → t.Inv

/-! ### Decoding and acceptance (30_encoding.md) -/

/-- R81 and R82: the decoder takes a word for a command exactly if MBZ is zero and its opcode is none of the ones
R82 lists as illegal. -/
def Obligations.DecoderAcceptsExactlyLegalWords : Prop :=
  ∀ w : Word, (∃ i, decode w = .command i) ↔ WellFormed.word w = true

/-- Each command has one word and each legal word is one command: the decoder answers `i` for the word `encode i` and
for no other. -/
def Obligations.DecodeAgreesWithEncode : Prop :=
  ∀ (w : Word) (i : Instr), decode w = .command i ↔ w = encode i

/-- R81's eight words, written out. -/
def Obligations.WordsOfTheOpcodeMapDecode : Prop :=
  decode 0b00000000000000000000000000000001#32 = .command .crcInit ∧
  decode 0b00000000000000000000000000000010#32 = .command .crcFeed ∧
  decode 0b00000000000000000000000000000011#32 = .command .crcBuf ∧
  decode 0b00000000000000000000000000000100#32 = .command .tblRead ∧
  decode 0b00000000000000000000000000010000#32 = .command .put16 ∧
  decode 0b00000000000000000000000000010001#32 = .command .put32 ∧
  decode 0b00000000000000000000000000100000#32 = .command .hdr ∧
  decode 0b00000000000000000000000000100001#32 = .command .chunk

/-- A step presents the decoded command: when the driver's next move is a write of CMD with a word that decodes to
`i`, the step is `exec i` at the state with that move taken off. With BUSY 1 the word is discarded (R95, R202):
`exec i` itself makes that check and then only sets ERR_BUSY, which is the model's placing of it (log entry 14). -/
def Obligations.StepRunsDecodedCommand : Prop :=
  ∀ (s u : State) (w : Word) (i : Instr), Issues s (.write 4 0x00 w) u → decode w = .command i → step s = exec i u

/-- The model's interface (log entry 16): the very next step of `s.withFetchWord 32 w` runs the table row's command at
`s` with an idle engine. -/
def Obligations.FetchWordRunsAsNextStep : Prop :=
  ∀ (s : State) (w : Nat) (i : Instr), decodeTableWord 32 w = some i →
    step (s.withFetchWord 32 w) = exec i { s with busy := false, inflight := none }

/-- R95: a CMD write while BUSY is 1 raises ERR_BUSY; one with MBZ or the opcode wrong raises ERR_OPCODE; any other is
executed, and (log entry 5) its acceptance alone, before the environment and the engine have done anything, has
latched the opcode, ARG0 and ARG1 and set BUSY and changed nothing else. -/
def Obligations.AcceptanceFollowsTheLifecycle : Prop :=
  ∀ (s u : State) (w : Word), Issues s (.write 4 0x00 w) u →
    (u.busy = true → step s = .next { u with errBusy := true }) ∧
    (u.busy = false →
      w.extractLsb' 8 24 ≠ 0#24 ∨
        w.extractLsb' 0 8 ∉ [0x01#8, 0x02#8, 0x03#8, 0x04#8, 0x10#8, 0x11#8, 0x20#8, 0x21#8] →
      step s = .next { u with errOpcode := true }) ∧
    (u.busy = false → w.extractLsb' 8 24 = 0#24 →
      w.extractLsb' 0 8 ∈ [0x01#8, 0x02#8, 0x03#8, 0x04#8, 0x10#8, 0x11#8, 0x20#8, 0x21#8] →
      ∃ i, opcode i = w.extractLsb' 0 8 ∧ step s = exec i u ∧
        (u.ready = Readiness.stalled → ∃ p, exec i u =
          .next { u with busy := true, inflight := some ⟨w.extractLsb' 0 8, u.arg0, u.arg1, p⟩ }))

/-! ### Errors (60_exceptions.md) -/

/-- R203: an illegal word written to CMD while BUSY is 0 sets ERR_OPCODE and has no other effect. -/
def Obligations.IllegalWordSetsErrOpcodeOnly : Prop :=
  ∀ (s u : State) (w : Word), Issues s (.write 4 0x00 w) u → u.busy = false → WellFormed.word w = false →
    step s = .next { u with errOpcode := true }

/-- R202, R204: a CMD write of any word, legal or not, while BUSY is 1 sets ERR_BUSY and has no other effect; and the
command in flight goes on, under any readiness of the environment, as if the write had not happened. -/
def Obligations.CmdWriteWhileBusySetsErrBusyOnly : Prop :=
  ∀ (s u : State) (w : Word), Issues s (.write 4 0x00 w) u → u.busy = true →
    step s = .next { u with errBusy := true } ∧
      ∀ r, envTurn r { u with errBusy := true } = { envTurn r u with errBusy := true }

/-- R200, R201, R204: a step that sets an error bit is a driver's write of CMD; it sets ERR_BUSY only with BUSY 1,
ERR_OPCODE only with BUSY 0 and an illegal word, and never both. -/
def Obligations.ErrorsComeOnlyFromCmdWrites : Prop :=
  ∀ s t : State, step s = .next t →
    (s.errOpcode = false ∧ t.errOpcode = true ∨ s.errBusy = false ∧ t.errBusy = true) →
    s.sched.headD .driver = .driver ∧
    ∃ w rest, s.driver = .write 4 0x00 w :: rest ∧
      (s.errBusy = false ∧ t.errBusy = true → s.busy = true ∧ t.errOpcode = s.errOpcode) ∧
      (s.errOpcode = false ∧ t.errOpcode = true →
        s.busy = false ∧ WellFormed.word w = false ∧ t.errBusy = s.errBusy)

/-- R207: an error bit that is 1 falls only by the reset input or by a driver's write of STATUS with that bit 1. -/
def Obligations.ErrorBitsAreSticky : Prop :=
  ∀ s t : State, step s = .next t →
    (s.errOpcode = true → t.errOpcode = false →
      s.sched.headD .driver = .reset ∨
        s.sched.headD .driver = .driver ∧ ∃ w rest, s.driver = .write 4 0x04 w :: rest ∧ w.getLsbD 1 = true) ∧
    (s.errBusy = true → t.errBusy = false →
      s.sched.headD .driver = .reset ∨
        s.sched.headD .driver = .driver ∧ ∃ w rest, s.driver = .write 4 0x04 w :: rest ∧ w.getLsbD 2 = true)

/-! ### The register port (20_memory.md) -/

/-- R52: what a read returns, by offset; it changes nothing but what the driver has received. -/
def Obligations.PortReadReturnsRegister : Prop :=
  ∀ (s u : State) (off : Nat), Issues s (.read 4 off) u →
    (off = 0x00 → step s = .next { u with reads := u.reads ++ [0x00000000#32] }) ∧
    (off = 0x04 → step s = .next { u with reads := u.reads ++
      [(if u.errBusy then 4#32 else 0#32) ||| (if u.errOpcode then 2#32 else 0#32) |||
        (if u.busy then 1#32 else 0#32)] }) ∧
    (off = 0x08 → step s = .next { u with reads := u.reads ++ [u.arg0] }) ∧
    (off = 0x0C → step s = .next { u with reads := u.reads ++ [u.arg1] }) ∧
    (off = 0x10 → step s = .next { u with reads := u.reads ++ [u.result] }) ∧
    (off = 0x14 → step s = .next { u with reads := u.reads ++ [u.acc] }) ∧
    (off = 0x18 ∨ off = 0x1C → step s = .next { u with reads := u.reads ++ [0x00000000#32] })

/-- R53: the effect of a write, by offset. -/
def Obligations.PortWriteHasItsEffectOnly : Prop :=
  ∀ (s u : State) (off : Nat) (w : Word), Issues s (.write 4 off w) u →
    (off = 0x00 → step s = writeCmd w u) ∧
    (off = 0x04 → step s = .next { u with
      errOpcode := if w.getLsbD 1 then false else u.errOpcode
      errBusy := if w.getLsbD 2 then false else u.errBusy }) ∧
    (off = 0x08 → step s = .next { u with arg0 := w }) ∧
    (off = 0x0C → step s = .next { u with arg1 := w }) ∧
    (off = 0x10 ∨ off = 0x14 ∨ off = 0x18 ∨ off = 0x1C → step s = .next u)

/-- R51, R54: a register-port access that is not 4 bytes wide at a multiple of 4 is refused; a 32-bit one at a
multiple of 4 in 0x00..0x1C answers a next state in one step, whatever the engine does (the port never stalls the
driver and returns no error). -/
def Obligations.OnlyAlignedWordAccessesHaveMeaning : Prop :=
  ∀ (s u : State) (bytes off : Nat) (w : Word),
    (Issues s (.write bytes off w) u → bytes ≠ 4 ∨ off % 4 ≠ 0 → step s = .refused .notWordAccess) ∧
    (Issues s (.read bytes off) u → bytes ≠ 4 ∨ off % 4 ≠ 0 → step s = .refused .notWordAccess) ∧
    (Issues s (.write bytes off w) u → WellFormed.access bytes off = true →
      ∃ t, step s = .next t ∧ t.driver = u.driver ∧ t.sched = u.sched) ∧
    (Issues s (.read bytes off) u → WellFormed.access bytes off = true →
      ∃ t, step s = .next t ∧ t.driver = u.driver ∧ t.sched = u.sched)

/-- The model's reading of R51 (log entry 10): an aligned word access outside the window is refused by a name of its
own. -/
def Obligations.AccessOutsideWindowIsRefused : Prop :=
  ∀ (s u : State) (off : Nat) (w : Word), off % 4 = 0 → 0x1C < off →
    (Issues s (.write 4 off w) u → step s = .refused .outsideWindow) ∧
    (Issues s (.read 4 off) u → step s = .refused .outsideWindow)

/-- R236: the driver may write ARG0 and ARG1 while a command is in flight; the write takes effect on the register, and
the command goes on, under any readiness of the environment, exactly as without it. -/
def Obligations.OperandRegistersAreFreeWhileBusy : Prop :=
  ∀ (s u : State) (w : Word),
    (Issues s (.write 4 0x08 w) u → step s = .next { u with arg0 := w } ∧
      ∀ r, envTurn r { u with arg0 := w } = { envTurn r u with arg0 := w }) ∧
    (Issues s (.write 4 0x0C w) u → step s = .next { u with arg1 := w } ∧
      ∀ r, envTurn r { u with arg1 := w } = { envTurn r u with arg1 := w })

/-- `WAIT` (R93) reads STATUS; with BUSY 0 the driver goes on, with BUSY 1 it will poll again; one poll a step
is the model's choice (log entry 19). -/
def Obligations.WaitPollsUntilIdle : Prop :=
  ∀ s u : State, Issues s .wait u →
    (u.busy = false → step s = .next { u with reads := u.reads ++ [statusWord u] }) ∧
    (u.busy = true → ∃ t, step s = .next t ∧ t.driver = .wait :: u.driver ∧ t.reads = u.reads ++ [statusWord u])

/-! ### The checksum function (41_crc.md) -/

/-- R32, R110: the table has 256 entries, and entry `n` is `TableEntry(n)` of R100. -/
def Obligations.TableListsTableEntries : Prop :=
  crcTable.length = 256 ∧ ∀ n : Byte, crcT n = tableEntry n

/-- R103, R109: the checksum of no bytes, and of "123456789" with the register before the final XOR. -/
def Obligations.ChecksumCheckValues : Prop :=
  crc32 [] = 0x00000000#32 ∧
  crc32 [0x31#8, 0x32#8, 0x33#8, 0x34#8, 0x35#8, 0x36#8, 0x37#8, 0x38#8, 0x39#8] = 0xCBF43926#32 ∧
  crcFold 0xFFFFFFFF#32 [0x31#8, 0x32#8, 0x33#8, 0x34#8, 0x35#8, 0x36#8, 0x37#8, 0x38#8, 0x39#8] = 0x340BC6D9#32

/-- R108: folding a concatenation is folding its parts in turn; so CRC_INIT, and then any mix of CRC_FEED and
CRC_BUF, leaves in RESULT the CRC32 of all the bytes so far: each of them takes a state whose ACC is the fold of
`xs` to one whose ACC is the fold of `xs` and the new bytes and whose RESULT is their CRC32. That each completes in
the step that accepts it, and the readiness it leaves, are the model's choice (log entries 4, 5). -/
def Obligations.ChecksumComposes : Prop :=
  (∀ (c : Word) (xs ys : List Byte), crcFold c (xs ++ ys) = crcFold (crcFold c xs) ys) ∧
  ∀ (s : State) (xs : List Byte), s.busy = false → s.ready = Readiness.free →
    (∃ t, exec .crcInit s = .next t ∧ t.acc = crcFold 0xFFFFFFFF#32 [] ∧ t.result = crc32 [] ∧
      t.busy = false ∧ t.ready = Readiness.free) ∧
    (s.acc = crcFold 0xFFFFFFFF#32 xs →
      (∃ t, exec .crcFeed s = .next t ∧ t.acc = crcFold 0xFFFFFFFF#32 (xs ++ [s.arg0.extractLsb' 0 8]) ∧
        t.result = crc32 (xs ++ [s.arg0.extractLsb' 0 8]) ∧ t.busy = false ∧ t.ready = Readiness.free) ∧
      (∃ t, exec .crcBuf s = .next t ∧
        t.acc = crcFold 0xFFFFFFFF#32 (xs ++ s.pmem.bytes s.arg0 s.arg1.toNat) ∧
        t.result = crc32 (xs ++ s.pmem.bytes s.arg0 s.arg1.toNat) ∧ t.busy = false ∧ t.ready = Readiness.free))

/-- The checksum tells any two payloads apart that differ in one byte only (95_test_vectors.md S-9: every single-bit
flip of a payload changes its `crc32`). -/
def Obligations.OneChangedByteChangesChecksum : Prop :=
  ∀ (xs ys : List Byte) (b b' : Byte), b ≠ b' → crc32 (xs ++ b :: ys) ≠ crc32 (xs ++ b' :: ys)

/-! ### The commands complete (41_crc.md, 42_encoder.md, 43_framer.md)

Each statement gives the whole next state, so it is also the command's frame: every field it does not name is
unchanged, every byte of the payload memory among them. What each rests on beside the rule it names is the model's
choice: the environment's answers are counted in credits (log entry 4), and the step that accepts the command also
runs the engine as far as they go (log entry 5). -/

/-- R104; the credits and the one step are the model's choice (log entries 4, 5). -/
def Obligations.CrcInitCompletes : Prop :=
  decode 0x00000001#32 = .command .crcInit ∧
  ∀ s : State, s.busy = false → s.ready.covers ⟨1, 0, 0, 0⟩ = true →
    exec .crcInit s = .next { s with
      acc := 0xFFFFFFFF#32
      result := 0x00000000#32
      inflight := none
      ready := s.ready.less ⟨1, 0, 0, 0⟩ }

/-- R105; the credits and the one step are the model's choice (log entries 4, 5). -/
def Obligations.CrcFeedCompletes : Prop :=
  decode 0x00000002#32 = .command .crcFeed ∧
  ∀ s : State, s.busy = false → s.ready.covers ⟨1, 0, 0, 0⟩ = true →
    exec .crcFeed s = .next { s with
      acc := crcStep s.acc (s.arg0.extractLsb' 0 8)
      result := crcStep s.acc (s.arg0.extractLsb' 0 8) ^^^ 0xFFFFFFFF#32
      inflight := none
      ready := s.ready.less ⟨1, 0, 0, 0⟩ }

/-- R106: the bytes at `ARG0 +32 k` for `k < ARG1`, in ascending order, are folded into ACC; the credits and
the one step are the model's choice (log entries 4, 5). -/
def Obligations.CrcBufCompletes : Prop :=
  decode 0x00000003#32 = .command .crcBuf ∧
  ∀ s : State, s.busy = false → s.ready.covers ⟨1, s.arg1.toNat, 0, 0⟩ = true →
    exec .crcBuf s = .next { s with
      acc := crcFold s.acc ((List.range s.arg1.toNat).map fun k => s.pmem.read (s.arg0 + BitVec.ofNat 32 k))
      result := crcFold s.acc
        ((List.range s.arg1.toNat).map fun k => s.pmem.read (s.arg0 + BitVec.ofNat 32 k)) ^^^ 0xFFFFFFFF#32
      inflight := none
      ready := s.ready.less ⟨1, s.arg1.toNat, 0, 0⟩ }

/-- R107; the credits and the one step are the model's choice (log entries 4, 5). -/
def Obligations.TblReadCompletes : Prop :=
  decode 0x00000004#32 = .command .tblRead ∧
  ∀ s : State, s.busy = false → s.ready.covers ⟨1, 0, 0, 0⟩ = true →
    exec .tblRead s = .next { s with
      result := tableEntry (s.arg0.extractLsb' 0 8)
      inflight := none
      ready := s.ready.less ⟨1, 0, 0, 0⟩ }

/-- R130; the credits and the one step are the model's choice (log entries 4, 5). -/
def Obligations.Put16Completes : Prop :=
  decode 0x00000010#32 = .command .put16 ∧
  ∀ s : State, s.busy = false → s.ready.covers ⟨1, 0, 2, 0⟩ = true →
    exec .put16 s = .next { s with
      out := s.out ++ [.byte (s.arg0.extractLsb' 0 8), .byte (s.arg0.extractLsb' 8 8)]
      inflight := none
      ready := s.ready.less ⟨1, 0, 2, 0⟩ }

/-- R131; the credits and the one step are the model's choice (log entries 4, 5). -/
def Obligations.Put32Completes : Prop :=
  decode 0x00000011#32 = .command .put32 ∧
  ∀ s : State, s.busy = false → s.ready.covers ⟨1, 0, 4, 0⟩ = true →
    exec .put32 s = .next { s with
      out := s.out ++ [.byte (s.arg0.extractLsb' 0 8), .byte (s.arg0.extractLsb' 8 8),
        .byte (s.arg0.extractLsb' 16 8), .byte (s.arg0.extractLsb' 24 8)]
      inflight := none
      ready := s.ready.less ⟨1, 0, 4, 0⟩ }

/-- R150, with the packet of R88: marker, tag 0x01, then `total_size`, `chunk_size` and `total_chunks`, each
little-endian; 13 `Byte` events and no `Flush`; the credits and the one step are the model's choice
(log entries 4, 5). -/
def Obligations.HdrCompletes : Prop :=
  decode 0x00000020#32 = .command .hdr ∧
  ∀ s : State, s.busy = false → s.ready.covers ⟨1, 0, 13, 0⟩ = true →
    exec .hdr s = .next { s with
      out := s.out ++ (le32 Config.magic ++ [0x01#8] ++ le32 s.arg0 ++ le16 (s.arg1.extractLsb' 0 16) ++
        le16 (s.arg1.extractLsb' 16 16)).map OutEvent.byte
      inflight := none
      ready := s.ready.less ⟨1, 0, 13, 0⟩ }

/-- R151 to R153, with the packet of R89: the bytes at `ARG0 +32 k` for `k < ARG1[31:16]` go out after marker, tag
0x02, index, length and their own CRC32, then one `Flush`, which the sink acknowledges for everything put out so
far; RESULT is the checksum and ACC is unchanged. The credits, the one step, the one read of each byte and the
acknowledged length are the model's choice (log entries 4, 5, 7, 13). -/
def Obligations.ChunkCompletes : Prop :=
  decode 0x00000021#32 = .command .chunk ∧
  ∀ (s : State) (n : Nat) (data : List Byte), n = (s.arg1.extractLsb' 16 16).toNat →
    data = (List.range n).map (fun k => s.pmem.read (s.arg0 + BitVec.ofNat 32 k)) →
    s.busy = false → s.ready.covers ⟨2, n, 13 + n, 1⟩ = true →
    exec .chunk s = .next { s with
      out := s.out ++ (le32 Config.magic ++ [0x02#8] ++ le16 (s.arg1.extractLsb' 0 16) ++
        le16 (s.arg1.extractLsb' 16 16) ++ le32 (crc32 data) ++ data).map OutEvent.byte ++ [.flush]
      sentLen := s.out.length + 13 + n + 1
      result := crc32 data
      inflight := none
      ready := s.ready.less ⟨2, n, 13 + n, 1⟩ }

/-! ### The commands wait (70_reset_and_hazards.md) -/

/-- R240's counts are also needed: where the environment does not answer as often as the command needs, the command
stays in flight with its latched operands, BUSY is 1, RESULT and ACC are as before (R96, R235), and what it has put
out so far is the first part of its events; the credits are the model's choice (log entries 4, 5). -/
def Obligations.CommandWaitsForItsEnvironment : Prop :=
  ∀ (i : Instr) (s : State), s.busy = false → s.ready.covers (needs i s.arg1) = false →
    ∃ t f sent, exec i s = .next t ∧ t.busy = true ∧ t.inflight = some f ∧
      f.lop = opcode i ∧ f.la0 = s.arg0 ∧ f.la1 = s.arg1 ∧ t.result = s.result ∧ t.acc = s.acc ∧
      t.out = s.out ++ sent ∧ sent <+: commandEvents i s.pmem s.arg0 s.arg1

/-- R238, R60: a sink that accepts no byte the block offers, or acknowledges no flush it waits for, keeps the block
BUSY with the same command at the same place and `OUT` as it is, over any number of steps in which the platform
does not reset it; the credits are the model's choice (log entry 4). -/
def Obligations.StalledSinkKeepsBlockBusy : Prop :=
  ∀ (k : Nat) (s t : State) (f : InFlight), s.busy = true → s.inflight = some f → Turn.reset ∉ s.sched →
    ((∃ b todo wr, f.current = .emitting (.byte b :: todo) wr) ∧ s.ready.sink = .upTo 0 ∧
        (∀ r, Turn.env r ∈ s.sched → r.sink = .upTo 0) ∨
      (∃ todo wr, f.current = .awaitingAck todo wr) ∧ s.ready.flush = .upTo 0 ∧
        (∀ r, Turn.env r ∈ s.sched → r.flush = .upTo 0)) →
    Sys2Proof.core.run k s = .next t →
    t.busy = true ∧ t.inflight = some f ∧ t.out = s.out ∧ t.result = s.result ∧ t.acc = s.acc

/-- R240, R96: from every state that meets the invariant, once the environment answers everything, the command in
flight completes. That the environment's answers are credits (log entry 4) and that its one turn also runs the
engine as far as they go (log entry 5) are the model's choice. -/
def Obligations.CommandInFlightCompletesUnderFreeEnvironment : Prop :=
  ∀ s : State, s.Inv → ∃ t, step (withTurn (.env Readiness.free) s) = .next t ∧ t.busy = false ∧ t.inflight = none

/-- The result does not depend on the environment's pace (R58, R60, R240): a command that was held back anywhere, any
number of credits in, ends, once the environment answers everything, in the state it would have reached at once (log
entries 4, 5). -/
def Obligations.OutcomeIndependentOfPace : Prop :=
  ∀ (i : Instr) (s : State) (r : Readiness), s.busy = false →
    ∃ t u, exec i { s with ready := r } = .next t ∧ exec i { s with ready := Readiness.free } = .next u ∧
      envTurn Readiness.free t = u

/-- R64, R96: when BUSY has fallen by anything but a reset, the command is complete: its results stand in RESULT and
ACC, its last events stand at the end of `OUT`, and a CHUNK's have all been acknowledged as sent. What has been
acknowledged is the length `sentLen`, the model's choice (log entry 13). -/
def Obligations.BusyZeroMeansCommandComplete : Prop :=
  ∀ (s t : State) (f : InFlight), s.Inv → s.inflight = some f → step s = .next t → t.busy = false →
    s.sched.headD .driver ≠ .reset →
    ∃ i before, decodeOpcode f.lop = some i ∧
      t.result = (commandWrites i s.pmem s.acc f.la0 f.la1).result.getD s.result ∧
      t.acc = (commandWrites i s.pmem s.acc f.la0 f.la1).acc.getD s.acc ∧
      t.out = before ++ commandEvents i s.pmem f.la0 f.la1 ∧
      (i = .chunk → t.sentLen = t.out.length)

/-! ### Payload memory (20_memory.md) -/

/-- R237: while a CRC_BUF or CHUNK is in flight, a store by any agent to an address it reads is the model fault
`PayloadRace`, and the run stays there; that the value stored does not matter is the model's reading (log entry 9). -/
def Obligations.StoreIntoOwnedRangeIsPayloadRace : Prop :=
  ∀ (s u : State) (f : InFlight) (a : Word) (b : Byte) (n k j : Nat), u.inflight = some f →
    f.lop = 0x03#8 ∧ n = f.la1.toNat ∨ f.lop = 0x21#8 ∧ n = (f.la1.extractLsb' 16 16).toNat →
    k < n → a = f.la0 + BitVec.ofNat 32 k →
    (Issues s (.store a b) u → Sys2Proof.core.run (j + 1) s = .fault .payloadRace) ∧
    Sys2Proof.core.run (j + 1) (withTurn (.store a b) u) = .fault .payloadRace

/-- R55, R66: any other store is made: the byte stored is what a later read gives, every other byte is as before, and
nothing else changes. -/
def Obligations.OtherStoresReachPayloadMemory : Prop :=
  ∀ (s u : State) (a : Word) (b : Byte), u.pmem.wf = true →
    (∀ f, u.inflight = some f →
      (f.lop = 0x03#8 → ∀ k, k < f.la1.toNat → a ≠ f.la0 + BitVec.ofNat 32 k) ∧
      (f.lop = 0x21#8 → ∀ k, k < (f.la1.extractLsb' 16 16).toNat → a ≠ f.la0 + BitVec.ofNat 32 k)) →
    ∃ m : Memory, m.wf = true ∧ m.read a = b ∧ (∀ a', a' ≠ a → m.read a' = u.pmem.read a') ∧
      (Issues s (.store a b) u → step s = .next { u with pmem := m }) ∧
      step (withTurn (.store a b) u) = .next { u with pmem := m }

/-- R55, R63: the block never writes the payload memory: a step that changes a byte of it is a store to that byte. -/
def Obligations.OnlyStoresChangePayloadMemory : Prop :=
  ∀ (s t : State) (a : Word), step s = .next t → t.pmem.read a ≠ s.pmem.read a →
    (∃ b, s.sched.headD .driver = .store a b) ∨
      s.sched.headD .driver = .driver ∧ ∃ b rest, s.driver = .store a b :: rest

/-! ### Frames and whole-machine rules -/

/-- R27, R28, R59, R63: whatever a command does, completing, waiting or turned away, ARG0, ARG1 and ERR_OPCODE, every
byte of the payload memory, the driver's program, the schedule and what the driver has received are unchanged,
ERR_BUSY is unchanged unless BUSY was 1, and `OUT` is only appended to. -/
def Obligations.CommandFrame : Prop :=
  ∀ (i : Instr) (s t : State), exec i s = .next t →
    t.arg0 = s.arg0 ∧ t.arg1 = s.arg1 ∧ t.errOpcode = s.errOpcode ∧ (s.busy = false → t.errBusy = s.errBusy) ∧
    (∀ a, t.pmem.read a = s.pmem.read a) ∧ t.driver = s.driver ∧ t.sched = s.sched ∧ t.reads = s.reads ∧
    s.out <+: t.out

/-- R29, R30, R61: PUT16, PUT32 and HDR leave RESULT, and every command but CRC_INIT, CRC_FEED and CRC_BUF leaves ACC;
the checksum commands put nothing out; and only CHUNK flushes. -/
def Obligations.ResultRegistersAndOutputFrame : Prop :=
  ∀ (i : Instr) (s t : State), exec i s = .next t →
    (i = .put16 ∨ i = .put32 ∨ i = .hdr → t.result = s.result) ∧
    (i = .tblRead ∨ i = .put16 ∨ i = .put32 ∨ i = .hdr ∨ i = .chunk → t.acc = s.acc) ∧
    (i = .crcInit ∨ i = .crcFeed ∨ i = .crcBuf ∨ i = .tblRead → t.out = s.out) ∧
    (i ≠ .chunk → t.sentLen = s.sentLen ∧ ∃ bs : List Byte, t.out = s.out ++ bs.map OutEvent.byte)

/-- R84: the bits a command ignores change nothing: two runs of one command that differ only in them read, put out and
write the same, however far the environment lets them go. -/
def Obligations.IgnoredOperandBitsChangeNothing : Prop :=
  ∀ (i : Instr) (s : State) (a0 a1 c0 c1 : Word),
    (match i with
      | .crcInit => True
      | .crcFeed => a0.extractLsb' 0 8 = c0.extractLsb' 0 8
      | .crcBuf => a0 = c0 ∧ a1 = c1
      | .tblRead => a0.extractLsb' 0 8 = c0.extractLsb' 0 8
      | .put16 => a0.extractLsb' 0 16 = c0.extractLsb' 0 16
      | .put32 => a0 = c0
      | .hdr => a0 = c0 ∧ a1 = c1
      | .chunk => a0 = c0 ∧ a1 = c1) →
    ∃ t u, exec i { s with arg0 := a0, arg1 := a1 } = .next t ∧ exec i { s with arg0 := c0, arg1 := c1 } = .next u ∧
      t.busy = u.busy ∧ t.errOpcode = u.errOpcode ∧ t.errBusy = u.errBusy ∧ t.result = u.result ∧ t.acc = u.acc ∧
      t.inflight.map InFlight.progress = u.inflight.map InFlight.progress ∧ t.pmem = u.pmem ∧ t.out = u.out ∧
      t.sentLen = u.sentLen ∧ t.ready = u.ready

/-- R59: no step takes an event out of `OUT` or changes one. -/
def Obligations.OutputOnlyGrows : Prop :=
  ∀ s t : State, step s = .next t → s.out <+: t.out

/-- R96, R235: as long as BUSY is 1 after a step, RESULT and ACC are as they were before it. -/
def Obligations.ResultsAppearOnlyAtCompletion : Prop :=
  ∀ s t : State, step s = .next t → t.busy = true → t.result = s.result ∧ t.acc = s.acc

/-- R23: BUSY rises only by the acceptance of a legal command word written to CMD, and falls only by a reset or by a
completion: a turn in which the engine goes on (the environment's, a poll of `WAIT`, or that of a driver with nothing
left to do) and after which the command is gone with all of its effects (R96): RESULT and ACC as its rule gives, its
events at the end of `OUT`, and for CHUNK everything acknowledged. In which turns the engine goes on and the length
`sentLen` are the model's choice (log entries 5, 13). -/
def Obligations.BusyFollowsAcceptanceAndCompletion : Prop :=
  ∀ s t : State, s.Inv → step s = .next t →
    (s.busy = false → t.busy = true →
      s.sched.headD .driver = .driver ∧
        ∃ w rest, s.driver = .write 4 0x00 w :: rest ∧ WellFormed.word w = true ∧
          ∃ f, t.inflight = some f ∧ f.lop = w.extractLsb' 0 8 ∧ f.la0 = s.arg0 ∧ f.la1 = s.arg1) ∧
    (s.busy = true → t.busy = false →
      s.sched.headD .driver = .reset ∨
        ((∃ r, s.sched.headD .driver = .env r) ∨
            s.sched.headD .driver = .driver ∧ (s.driver = [] ∨ ∃ rest, s.driver = .wait :: rest)) ∧
          ∃ f i before, s.inflight = some f ∧ t.inflight = none ∧ decodeOpcode f.lop = some i ∧
            t.result = (commandWrites i s.pmem s.acc f.la0 f.la1).result.getD s.result ∧
            t.acc = (commandWrites i s.pmem s.acc f.la0 f.la1).acc.getD s.acc ∧
            t.out = before ++ commandEvents i s.pmem f.la0 f.la1 ∧
            (i = .chunk → t.sentLen = t.out.length))

/-- R65, R33: commands never overlap: while one is in flight, its latches do not change. -/
def Obligations.LatchesHoldWhileInFlight : Prop :=
  ∀ (s t : State) (f g : InFlight), s.Inv → step s = .next t → s.inflight = some f → t.inflight = some g →
    g.lop = f.lop ∧ g.la0 = f.la0 ∧ g.la1 = f.la1

/-! ### Wire encodings and the driver's side (30_encoding.md, 43_framer.md) -/

/-- R62, R86, R87: the encoders put the least significant byte first: the bytes weighted by powers of 256 are the
value. -/
def Obligations.EncodersAreLittleEndian : Prop :=
  (∀ v : Half, (le16 v).length = 2 ∧ (le16 v).foldr (fun b n => b.toNat + 256 * n) 0 = v.toNat) ∧
  (∀ v : Word, (le32 v).length = 4 ∧ (le32 v).foldr (fun b n => b.toNat + 256 * n) 0 = v.toNat)

/-- R93: the operand word that `HEADER` and `SEND` build carries each 16-bit field to its place in R83. -/
def Obligations.DriverPackingMatchesOperandFields : Prop :=
  ∀ hi lo : Half,
    hdrChunkSize (packArg1 (hi.setWidth 32) (lo.setWidth 32)) = lo ∧
    hdrTotalChunks (packArg1 (hi.setWidth 32) (lo.setWidth 32)) = hi ∧
    chunkIndex (packArg1 (hi.setWidth 32) (lo.setWidth 32)) = lo ∧
    chunkLen (packArg1 (hi.setWidth 32) (lo.setWidth 32)) = hi

/-- R5, R20: `REG_BASE` is 32-byte aligned, and the bus address of each register is in the window at its offset. -/
def Obligations.RegisterAddressesLieInWindow : Prop :=
  Config.regBase % 32 = 0 ∧ ∀ r : Reg, busOffset r.address = some r.offset ∧ WellFormed.access 4 r.offset = true

/-- R159, R162: the reference driver issues nothing for a frame of more than 65535 chunks, and a sequence for every
frame and chunk size within the limits. -/
def Obligations.ReferenceDriverRefusesOnlyLongFrames : Prop :=
  ∀ (base : Word) (len size : Nat), 1 ≤ size → size ≤ 65535 → len < 2 ^ 32 →
    ((transfer base len size).isSome = true ↔ chunkCount len size ≤ 65535)

/-- R160 (a) to (e): every chunk but the last is full, the last holds 1 to `C` bytes, the lengths add up to `L`, the
payloads joined in index order are the frame, an empty frame has no chunk, and a frame that divides evenly has
`L div C` full chunks. -/
def Obligations.ChunksPartitionTheFrame : Prop :=
  ∀ (m : Memory) (base : Word) (len size : Nat), 1 ≤ size → size ≤ 65535 → len < 2 ^ 32 →
    (∀ i, i + 1 < chunkCount len size → chunkPayloadLen len size i = size) ∧
    (0 < chunkCount len size →
      1 ≤ chunkPayloadLen len size (chunkCount len size - 1) ∧
        chunkPayloadLen len size (chunkCount len size - 1) ≤ size) ∧
    ((List.range (chunkCount len size)).map (chunkPayloadLen len size)).sum = len ∧
    (List.range (chunkCount len size)).flatMap (chunkData m base len size) = m.bytes base len ∧
    (len = 0 → chunkCount len size = 0) ∧
    (len % size = 0 → chunkCount len size = len / size ∧
      ∀ i, i < chunkCount len size → chunkPayloadLen len size i = size)

/-- R160 (log entries 4 to 6, 18): the reference driver sequence, run from an idle block whose environment answers,
puts out exactly the header packet and, in index order, the chunk packets of the frame's parts, one `Flush` after each
chunk packet; it leaves the driver at what follows the sequence, and the payload memory and ACC alone. -/
def Obligations.TransferPutsOutTheFrame : Prop :=
  ∀ (s : State) (base : Word) (len size : Nat) (ops rest : List DriverOp),
    transfer base len size = some ops → s.busy = false → s.inflight = none → s.ready = Readiness.free →
    s.sched = [] → s.driver = ops ++ rest →
    ∃ t, Reaches s t ∧ t.driver = rest ∧ t.busy = false ∧
      t.out = s.out ++ transferEvents s.pmem base len size ∧ t.pmem = s.pmem ∧ t.acc = s.acc

/-- R161: a transfer puts out `13 * (N + 1) + L` bytes, and one flush a chunk. -/
def Obligations.TransferLength : Prop :=
  ∀ (m : Memory) (base : Word) (len size : Nat), 1 ≤ size → size ≤ 65535 → len < 2 ^ 32 →
    (transferEvents m base len size).countP (· ≠ .flush) = 13 * (chunkCount len size + 1) + len ∧
    (transferEvents m base len size).countP (· = .flush) = chunkCount len size
end

