-- ==== Sys2Proof/Laws/Crc.lean ====
section
/-! SUPPORT. The checksum fold and the lengths of the wire encodings (41_crc.md R102, R108; 30_encoding.md R86 to R91). -/

namespace Sys2Proof.Machine

@[simp] theorem crcFold_nil (c : Word) : crcFold c [] = c := rfl

@[simp] theorem crcFold_cons (c : Word) (b : Byte) (xs : List Byte) :
    crcFold c (b :: xs) = crcFold (crcStep c b) xs := rfl

theorem crcFold_snoc (c : Word) (xs : List Byte) (b : Byte) :
    crcFold c (xs ++ [b]) = crcStep (crcFold c xs) b := by
  induction xs generalizing c with
  | nil => rfl
  | cons x xs ih => simp [ih]

@[simp] theorem le16_length (v : Half) : (le16 v).length = 2 := rfl

@[simp] theorem le32_length (v : Word) : (le32 v).length = 4 := rfl

@[simp] theorem marker_length : marker.length = 4 := rfl

@[simp] theorem chunkHead_length (ci len : Half) (crc : Word) : (chunkHead ci len crc).length = 13 := rfl

@[simp] theorem byteEvents_nil : byteEvents [] = [] := rfl

@[simp] theorem byteEvents_cons (b : Byte) (xs : List Byte) :
    byteEvents (b :: xs) = .byte b :: byteEvents xs := rfl

theorem byteEvents_append (xs ys : List Byte) : byteEvents (xs ++ ys) = byteEvents xs ++ byteEvents ys :=
  List.map_append

@[simp] theorem byteEvents_length (xs : List Byte) : (byteEvents xs).length = xs.length := List.length_map _

end Sys2Proof.Machine
end

