-- ==== Sys2Proof/Laws/Memory.lean ====
section
/-! SUPPORT. The payload memory: a read after a write, the canonical form, and byte ranges (20_memory.md R55, R56). -/

namespace Sys2Proof.Machine

theorem Memory.readNat_writeNat_same (m : Memory) (lo a : Nat) (b : Byte) (h : Memory.wfFrom lo m = true) :
    Memory.readNat (Memory.writeNat m a b) a = b := by
  induction m generalizing lo with
  | nil => by_cases hb : b = Memory.blank <;> simp [Memory.writeNat, Memory.readNat, hb]
  | cons e m ih =>
    obtain ⟨k, c⟩ := e
    simp only [Memory.wfFrom, Bool.and_eq_true, decide_eq_true_eq] at h
    have low : ∀ lo' : Nat, a < lo' → Memory.wfFrom lo' m = true → Memory.readNat m a = Memory.blank := by
      clear ih h
      induction m with
      | nil => intros; rfl
      | cons e m ih =>
        obtain ⟨k', c'⟩ := e
        intro lo' hlo hw
        simp only [Memory.wfFrom, Bool.and_eq_true, decide_eq_true_eq] at hw
        have : k' ≠ a := by omega
        simp only [Memory.readNat, this, if_false]
        exact ih (k' + 1) (by omega) hw.2
    rcases lt_trichotomy k a with hk | hk | hk
    · simp [Memory.writeNat, Memory.readNat, hk, hk.ne, ih (k + 1) h.2]
    · subst hk
      by_cases hb : b = Memory.blank
      · simp [Memory.writeNat, hb, low (k + 1) (by omega) h.2]
      · simp [Memory.writeNat, Memory.readNat, hb]
    · by_cases hb : b = Memory.blank
      · simp [Memory.writeNat, Memory.readNat, hb, hk.ne', show ¬ k < a by omega, low (k + 1) (by omega) h.2]
      · simp [Memory.writeNat, Memory.readNat, hb, hk.ne', show ¬ k < a by omega]

theorem Memory.readNat_writeNat_other (m : Memory) (a a' : Nat) (b : Byte) (h : a' ≠ a) :
    Memory.readNat (Memory.writeNat m a b) a' = Memory.readNat m a' := by
  induction m with
  | nil => by_cases hb : b = Memory.blank <;> simp [Memory.writeNat, Memory.readNat, hb, h.symm]
  | cons e m ih =>
    obtain ⟨k, c⟩ := e
    rcases lt_trichotomy k a with hk | hk | hk
    · simp [Memory.writeNat, Memory.readNat, hk, ih]
    · subst hk
      by_cases hb : b = Memory.blank <;> simp [Memory.writeNat, Memory.readNat, hb, h.symm]
    · by_cases hb : b = Memory.blank <;>
        simp [Memory.writeNat, Memory.readNat, hb, hk.ne', show ¬ k < a by omega, h.symm]

theorem Memory.wfFrom_writeNat (m : Memory) (lo a : Nat) (b : Byte) (h : Memory.wfFrom lo m = true)
    (hlo : lo ≤ a) (ha : a < 2 ^ 32) : Memory.wfFrom lo (Memory.writeNat m a b) = true := by
  induction m generalizing lo with
  | nil =>
    by_cases hb : b = Memory.blank
    · simp [Memory.writeNat, Memory.wfFrom, hb]
    · simp [Memory.writeNat, Memory.wfFrom, hb, hlo]
      omega
  | cons e m ih =>
    obtain ⟨k, c⟩ := e
    have h0 := h
    simp only [Memory.wfFrom, Bool.and_eq_true, decide_eq_true_eq] at h
    obtain ⟨⟨⟨h1, h2⟩, h3⟩, h4⟩ := h
    have weaken : ∀ lo' : Nat, lo' ≤ k + 1 → Memory.wfFrom lo' m = true := by
      intro lo' hle
      cases m with
      | nil => rfl
      | cons e' m' =>
        obtain ⟨k', c'⟩ := e'
        simp only [Memory.wfFrom, Bool.and_eq_true, decide_eq_true_eq] at h4 ⊢
        exact ⟨⟨⟨by omega, h4.1.1.2⟩, h4.1.2⟩, h4.2⟩
    rcases lt_trichotomy k a with hk | hk | hk
    · simp [Memory.writeNat, Memory.wfFrom, hk, h1, h3, ih (k + 1) h4 (by omega)]
      omega
    · subst hk
      by_cases hb : b = Memory.blank
      · simpa [Memory.writeNat, hb] using weaken lo (by omega)
      · simp [Memory.writeNat, Memory.wfFrom, hb, h1, h4]
        omega
    · by_cases hb : b = Memory.blank
      · simpa [Memory.writeNat, hb, show ¬ k < a by omega, hk.ne'] using h0
      · have : ¬ k < a := by omega
        simp [Memory.writeNat, Memory.wfFrom, hb, this, hk.ne', hlo, h3, h4, Nat.succ_le_of_lt hk]
        omega

/-- A read at the address of a store gives the byte stored. -/
theorem Memory.read_write_same (m : Memory) (a : Word) (b : Byte) (h : m.wf = true) :
    (m.write a b).read a = b :=
  Memory.readNat_writeNat_same m 0 a.toNat b h

/-- A store leaves every other address alone. -/
theorem Memory.read_write_other (m : Memory) (a a' : Word) (b : Byte) (h : a' ≠ a) :
    (m.write a b).read a' = m.read a' :=
  Memory.readNat_writeNat_other m a.toNat a'.toNat b fun e => h (BitVec.eq_of_toNat_eq e)

/-- A store keeps the canonical form. -/
theorem Memory.wf_write (m : Memory) (a : Word) (b : Byte) (h : m.wf = true) : (m.write a b).wf = true :=
  Memory.wfFrom_writeNat m 0 a.toNat b h (Nat.zero_le _) a.isLt

theorem Memory.readNat_below (m : Memory) (lo a : Nat) (h : Memory.wfFrom lo m = true) (ha : a < lo) :
    Memory.readNat m a = Memory.blank := by
  induction m generalizing lo with
  | nil => rfl
  | cons e m ih =>
    obtain ⟨k, c⟩ := e
    simp only [Memory.wfFrom, Bool.and_eq_true, decide_eq_true_eq] at h
    simp [Memory.readNat, show k ≠ a by omega, ih (k + 1) h.2 (by omega)]

theorem Memory.readNat_above (m : Memory) (lo a : Nat) (h : Memory.wfFrom lo m = true) (ha : 2 ^ 32 ≤ a) :
    Memory.readNat m a = Memory.blank := by
  induction m generalizing lo with
  | nil => rfl
  | cons e m ih =>
    obtain ⟨k, c⟩ := e
    simp only [Memory.wfFrom, Bool.and_eq_true, decide_eq_true_eq] at h
    simp [Memory.readNat, show k ≠ a by omega, ih (k + 1) h.2]

theorem Memory.eq_of_readNat (m m' : Memory) (lo : Nat) (h : Memory.wfFrom lo m = true)
    (h' : Memory.wfFrom lo m' = true) (hr : ∀ a, Memory.readNat m a = Memory.readNat m' a) : m = m' := by
  induction m generalizing m' lo with
  | nil =>
    cases m' with
    | nil => rfl
    | cons e m' =>
      obtain ⟨k, c⟩ := e
      simp only [Memory.wfFrom, Bool.and_eq_true, decide_eq_true_eq] at h'
      exact absurd (by simpa [Memory.readNat] using (hr k).symm) h'.1.2
  | cons e m ih =>
    obtain ⟨k, c⟩ := e
    cases m' with
    | nil =>
      simp only [Memory.wfFrom, Bool.and_eq_true, decide_eq_true_eq] at h
      exact absurd (by simpa [Memory.readNat] using hr k) h.1.2
    | cons e' m' =>
      obtain ⟨k', c'⟩ := e'
      simp only [Memory.wfFrom, Bool.and_eq_true, decide_eq_true_eq] at h h'
      have hk : k = k' := by
        rcases lt_trichotomy k k' with hlt | heq | hlt
        · have := hr k
          simp only [Memory.readNat, if_true, hlt.ne', if_false] at this
          exact absurd (this.trans (Memory.readNat_below m' (k' + 1) k h'.2 (by omega))) h.1.2
        · exact heq
        · have := hr k'
          simp only [Memory.readNat, if_true, hlt.ne', if_false] at this
          exact absurd (this.symm.trans (Memory.readNat_below m (k + 1) k' h.2 (by omega))) h'.1.2
      subst hk
      have hc : c = c' := by simpa [Memory.readNat] using hr k
      subst hc
      congr 1
      refine ih m' (k + 1) h.2 h'.2 fun a => ?_
      by_cases ha : k = a
      · subst ha
        rw [Memory.readNat_below m (k + 1) k h.2 (by omega), Memory.readNat_below m' (k + 1) k h'.2 (by omega)]
      · simpa [Memory.readNat, ha] using hr a

/-- Two canonical memories that read alike at every address are equal as data. -/
theorem Memory.eq_of_read (m m' : Memory) (h : m.wf = true) (h' : m'.wf = true)
    (hr : ∀ a, m.read a = m'.read a) : m = m' := by
  refine Memory.eq_of_readNat m m' 0 h h' fun a => ?_
  by_cases ha : a < 2 ^ 32
  · have := hr (BitVec.ofNat 32 a)
    rwa [Memory.read, Memory.read, BitVec.toNat_ofNat, Nat.mod_eq_of_lt ha] at this
  · rw [Memory.readNat_above m 0 a h (by omega), Memory.readNat_above m' 0 a h' (by omega)]

@[simp] theorem Memory.bytes_length (m : Memory) (a : Word) (n : Nat) : (m.bytes a n).length = n := by
  simp [Memory.bytes]

@[simp] theorem Memory.bytes_zero (m : Memory) (a : Word) : m.bytes a 0 = [] := rfl

theorem Memory.bytes_succ (m : Memory) (a : Word) (n : Nat) :
    m.bytes a (n + 1) = m.bytes a n ++ [m.read (a + BitVec.ofNat 32 n)] := by
  simp [Memory.bytes, List.range_succ]

/-- A range is its first part and then the range that begins where that part ends (20_memory.md R56). -/
theorem Memory.bytes_add (m : Memory) (a : Word) (n k : Nat) :
    m.bytes a (n + k) = m.bytes a n ++ m.bytes (a + BitVec.ofNat 32 n) k := by
  induction k with
  | zero => simp
  | succ k ih =>
    rw [← Nat.add_assoc, Memory.bytes_succ, Memory.bytes_succ, ih, List.append_assoc, BitVec.add_assoc,
      ← BitVec.ofNat_add]

/-- Two memories that read alike on a range have the same bytes there. -/
theorem Memory.bytes_congr (m m' : Memory) (a : Word) (n : Nat)
    (h : ∀ k < n, m.read (a + BitVec.ofNat 32 k) = m'.read (a + BitVec.ofNat 32 k)) :
    m.bytes a n = m'.bytes a n := by
  refine List.map_congr_left fun k hk => h k (List.mem_range.1 hk)

/-- A store outside a range leaves the bytes of the range alone. -/
theorem Memory.bytes_write_outside (m : Memory) (a p : Word) (n : Nat) (b : Byte)
    (h : ¬ (p - a).toNat < n) : (m.write p b).bytes a n = m.bytes a n := by
  refine Memory.bytes_congr _ _ _ _ fun k hk => Memory.read_write_other _ _ _ _ ?_
  rintro rfl
  apply h
  rw [show a + BitVec.ofNat 32 k - a = BitVec.ofNat 32 k by rw [BitVec.add_comm, BitVec.add_sub_cancel]]
  simp only [BitVec.toNat_ofNat]
  exact lt_of_le_of_lt (Nat.mod_le _ _) hk

end Sys2Proof.Machine
end

