-- ==== Sys2Proof/Laws/State.lean ====
section
/-! SUPPORT. One lemma per field per named update of the state, so that no later proof unfolds a record update. -/

namespace Sys2Proof.Machine

/-! ### `setArg0 w` -/

@[simp] theorem setArg0_busy (w : Word) (s : State) : (setArg0 w s).busy = s.busy := rfl
@[simp] theorem setArg0_errOpcode (w : Word) (s : State) : (setArg0 w s).errOpcode = s.errOpcode := rfl
@[simp] theorem setArg0_errBusy (w : Word) (s : State) : (setArg0 w s).errBusy = s.errBusy := rfl
@[simp] theorem setArg0_arg0 (w : Word) (s : State) : (setArg0 w s).arg0 = w := rfl
@[simp] theorem setArg0_arg1 (w : Word) (s : State) : (setArg0 w s).arg1 = s.arg1 := rfl
@[simp] theorem setArg0_result (w : Word) (s : State) : (setArg0 w s).result = s.result := rfl
@[simp] theorem setArg0_acc (w : Word) (s : State) : (setArg0 w s).acc = s.acc := rfl
@[simp] theorem setArg0_inflight (w : Word) (s : State) : (setArg0 w s).inflight = s.inflight := rfl
@[simp] theorem setArg0_pmem (w : Word) (s : State) : (setArg0 w s).pmem = s.pmem := rfl
@[simp] theorem setArg0_out (w : Word) (s : State) : (setArg0 w s).out = s.out := rfl
@[simp] theorem setArg0_sentLen (w : Word) (s : State) : (setArg0 w s).sentLen = s.sentLen := rfl
@[simp] theorem setArg0_ready (w : Word) (s : State) : (setArg0 w s).ready = s.ready := rfl
@[simp] theorem setArg0_driver (w : Word) (s : State) : (setArg0 w s).driver = s.driver := rfl
@[simp] theorem setArg0_sched (w : Word) (s : State) : (setArg0 w s).sched = s.sched := rfl
@[simp] theorem setArg0_reads (w : Word) (s : State) : (setArg0 w s).reads = s.reads := rfl

/-! ### `setArg1 w` -/

@[simp] theorem setArg1_busy (w : Word) (s : State) : (setArg1 w s).busy = s.busy := rfl
@[simp] theorem setArg1_errOpcode (w : Word) (s : State) : (setArg1 w s).errOpcode = s.errOpcode := rfl
@[simp] theorem setArg1_errBusy (w : Word) (s : State) : (setArg1 w s).errBusy = s.errBusy := rfl
@[simp] theorem setArg1_arg0 (w : Word) (s : State) : (setArg1 w s).arg0 = s.arg0 := rfl
@[simp] theorem setArg1_arg1 (w : Word) (s : State) : (setArg1 w s).arg1 = w := rfl
@[simp] theorem setArg1_result (w : Word) (s : State) : (setArg1 w s).result = s.result := rfl
@[simp] theorem setArg1_acc (w : Word) (s : State) : (setArg1 w s).acc = s.acc := rfl
@[simp] theorem setArg1_inflight (w : Word) (s : State) : (setArg1 w s).inflight = s.inflight := rfl
@[simp] theorem setArg1_pmem (w : Word) (s : State) : (setArg1 w s).pmem = s.pmem := rfl
@[simp] theorem setArg1_out (w : Word) (s : State) : (setArg1 w s).out = s.out := rfl
@[simp] theorem setArg1_sentLen (w : Word) (s : State) : (setArg1 w s).sentLen = s.sentLen := rfl
@[simp] theorem setArg1_ready (w : Word) (s : State) : (setArg1 w s).ready = s.ready := rfl
@[simp] theorem setArg1_driver (w : Word) (s : State) : (setArg1 w s).driver = s.driver := rfl
@[simp] theorem setArg1_sched (w : Word) (s : State) : (setArg1 w s).sched = s.sched := rfl
@[simp] theorem setArg1_reads (w : Word) (s : State) : (setArg1 w s).reads = s.reads := rfl

/-! ### `setPmem m` -/

@[simp] theorem setPmem_busy (m : Memory) (s : State) : (setPmem m s).busy = s.busy := rfl
@[simp] theorem setPmem_errOpcode (m : Memory) (s : State) : (setPmem m s).errOpcode = s.errOpcode := rfl
@[simp] theorem setPmem_errBusy (m : Memory) (s : State) : (setPmem m s).errBusy = s.errBusy := rfl
@[simp] theorem setPmem_arg0 (m : Memory) (s : State) : (setPmem m s).arg0 = s.arg0 := rfl
@[simp] theorem setPmem_arg1 (m : Memory) (s : State) : (setPmem m s).arg1 = s.arg1 := rfl
@[simp] theorem setPmem_result (m : Memory) (s : State) : (setPmem m s).result = s.result := rfl
@[simp] theorem setPmem_acc (m : Memory) (s : State) : (setPmem m s).acc = s.acc := rfl
@[simp] theorem setPmem_inflight (m : Memory) (s : State) : (setPmem m s).inflight = s.inflight := rfl
@[simp] theorem setPmem_pmem (m : Memory) (s : State) : (setPmem m s).pmem = m := rfl
@[simp] theorem setPmem_out (m : Memory) (s : State) : (setPmem m s).out = s.out := rfl
@[simp] theorem setPmem_sentLen (m : Memory) (s : State) : (setPmem m s).sentLen = s.sentLen := rfl
@[simp] theorem setPmem_ready (m : Memory) (s : State) : (setPmem m s).ready = s.ready := rfl
@[simp] theorem setPmem_driver (m : Memory) (s : State) : (setPmem m s).driver = s.driver := rfl
@[simp] theorem setPmem_sched (m : Memory) (s : State) : (setPmem m s).sched = s.sched := rfl
@[simp] theorem setPmem_reads (m : Memory) (s : State) : (setPmem m s).reads = s.reads := rfl

/-! ### `setReady r` -/

@[simp] theorem setReady_busy (r : Readiness) (s : State) : (setReady r s).busy = s.busy := rfl
@[simp] theorem setReady_errOpcode (r : Readiness) (s : State) : (setReady r s).errOpcode = s.errOpcode := rfl
@[simp] theorem setReady_errBusy (r : Readiness) (s : State) : (setReady r s).errBusy = s.errBusy := rfl
@[simp] theorem setReady_arg0 (r : Readiness) (s : State) : (setReady r s).arg0 = s.arg0 := rfl
@[simp] theorem setReady_arg1 (r : Readiness) (s : State) : (setReady r s).arg1 = s.arg1 := rfl
@[simp] theorem setReady_result (r : Readiness) (s : State) : (setReady r s).result = s.result := rfl
@[simp] theorem setReady_acc (r : Readiness) (s : State) : (setReady r s).acc = s.acc := rfl
@[simp] theorem setReady_inflight (r : Readiness) (s : State) : (setReady r s).inflight = s.inflight := rfl
@[simp] theorem setReady_pmem (r : Readiness) (s : State) : (setReady r s).pmem = s.pmem := rfl
@[simp] theorem setReady_out (r : Readiness) (s : State) : (setReady r s).out = s.out := rfl
@[simp] theorem setReady_sentLen (r : Readiness) (s : State) : (setReady r s).sentLen = s.sentLen := rfl
@[simp] theorem setReady_ready (r : Readiness) (s : State) : (setReady r s).ready = r := rfl
@[simp] theorem setReady_driver (r : Readiness) (s : State) : (setReady r s).driver = s.driver := rfl
@[simp] theorem setReady_sched (r : Readiness) (s : State) : (setReady r s).sched = s.sched := rfl
@[simp] theorem setReady_reads (r : Readiness) (s : State) : (setReady r s).reads = s.reads := rfl

/-! ### `setDriver ops` -/

@[simp] theorem setDriver_busy (ops : List DriverOp) (s : State) : (setDriver ops s).busy = s.busy := rfl
@[simp] theorem setDriver_errOpcode (ops : List DriverOp) (s : State) :
    (setDriver ops s).errOpcode = s.errOpcode := rfl
@[simp] theorem setDriver_errBusy (ops : List DriverOp) (s : State) : (setDriver ops s).errBusy = s.errBusy := rfl
@[simp] theorem setDriver_arg0 (ops : List DriverOp) (s : State) : (setDriver ops s).arg0 = s.arg0 := rfl
@[simp] theorem setDriver_arg1 (ops : List DriverOp) (s : State) : (setDriver ops s).arg1 = s.arg1 := rfl
@[simp] theorem setDriver_result (ops : List DriverOp) (s : State) : (setDriver ops s).result = s.result := rfl
@[simp] theorem setDriver_acc (ops : List DriverOp) (s : State) : (setDriver ops s).acc = s.acc := rfl
@[simp] theorem setDriver_inflight (ops : List DriverOp) (s : State) : (setDriver ops s).inflight = s.inflight := rfl
@[simp] theorem setDriver_pmem (ops : List DriverOp) (s : State) : (setDriver ops s).pmem = s.pmem := rfl
@[simp] theorem setDriver_out (ops : List DriverOp) (s : State) : (setDriver ops s).out = s.out := rfl
@[simp] theorem setDriver_sentLen (ops : List DriverOp) (s : State) : (setDriver ops s).sentLen = s.sentLen := rfl
@[simp] theorem setDriver_ready (ops : List DriverOp) (s : State) : (setDriver ops s).ready = s.ready := rfl
@[simp] theorem setDriver_driver (ops : List DriverOp) (s : State) : (setDriver ops s).driver = ops := rfl
@[simp] theorem setDriver_sched (ops : List DriverOp) (s : State) : (setDriver ops s).sched = s.sched := rfl
@[simp] theorem setDriver_reads (ops : List DriverOp) (s : State) : (setDriver ops s).reads = s.reads := rfl

/-! ### `setSched ts` -/

@[simp] theorem setSched_busy (ts : List Turn) (s : State) : (setSched ts s).busy = s.busy := rfl
@[simp] theorem setSched_errOpcode (ts : List Turn) (s : State) : (setSched ts s).errOpcode = s.errOpcode := rfl
@[simp] theorem setSched_errBusy (ts : List Turn) (s : State) : (setSched ts s).errBusy = s.errBusy := rfl
@[simp] theorem setSched_arg0 (ts : List Turn) (s : State) : (setSched ts s).arg0 = s.arg0 := rfl
@[simp] theorem setSched_arg1 (ts : List Turn) (s : State) : (setSched ts s).arg1 = s.arg1 := rfl
@[simp] theorem setSched_result (ts : List Turn) (s : State) : (setSched ts s).result = s.result := rfl
@[simp] theorem setSched_acc (ts : List Turn) (s : State) : (setSched ts s).acc = s.acc := rfl
@[simp] theorem setSched_inflight (ts : List Turn) (s : State) : (setSched ts s).inflight = s.inflight := rfl
@[simp] theorem setSched_pmem (ts : List Turn) (s : State) : (setSched ts s).pmem = s.pmem := rfl
@[simp] theorem setSched_out (ts : List Turn) (s : State) : (setSched ts s).out = s.out := rfl
@[simp] theorem setSched_sentLen (ts : List Turn) (s : State) : (setSched ts s).sentLen = s.sentLen := rfl
@[simp] theorem setSched_ready (ts : List Turn) (s : State) : (setSched ts s).ready = s.ready := rfl
@[simp] theorem setSched_driver (ts : List Turn) (s : State) : (setSched ts s).driver = s.driver := rfl
@[simp] theorem setSched_sched (ts : List Turn) (s : State) : (setSched ts s).sched = ts := rfl
@[simp] theorem setSched_reads (ts : List Turn) (s : State) : (setSched ts s).reads = s.reads := rfl

/-! ### `setBusy` -/

@[simp] theorem setBusy_busy (s : State) : (setBusy s).busy = true := rfl
@[simp] theorem setBusy_errOpcode (s : State) : (setBusy s).errOpcode = s.errOpcode := rfl
@[simp] theorem setBusy_errBusy (s : State) : (setBusy s).errBusy = s.errBusy := rfl
@[simp] theorem setBusy_arg0 (s : State) : (setBusy s).arg0 = s.arg0 := rfl
@[simp] theorem setBusy_arg1 (s : State) : (setBusy s).arg1 = s.arg1 := rfl
@[simp] theorem setBusy_result (s : State) : (setBusy s).result = s.result := rfl
@[simp] theorem setBusy_acc (s : State) : (setBusy s).acc = s.acc := rfl
@[simp] theorem setBusy_inflight (s : State) : (setBusy s).inflight = s.inflight := rfl
@[simp] theorem setBusy_pmem (s : State) : (setBusy s).pmem = s.pmem := rfl
@[simp] theorem setBusy_out (s : State) : (setBusy s).out = s.out := rfl
@[simp] theorem setBusy_sentLen (s : State) : (setBusy s).sentLen = s.sentLen := rfl
@[simp] theorem setBusy_ready (s : State) : (setBusy s).ready = s.ready := rfl
@[simp] theorem setBusy_driver (s : State) : (setBusy s).driver = s.driver := rfl
@[simp] theorem setBusy_sched (s : State) : (setBusy s).sched = s.sched := rfl
@[simp] theorem setBusy_reads (s : State) : (setBusy s).reads = s.reads := rfl

/-! ### `clearBusy` -/

@[simp] theorem clearBusy_busy (s : State) : (clearBusy s).busy = false := rfl
@[simp] theorem clearBusy_errOpcode (s : State) : (clearBusy s).errOpcode = s.errOpcode := rfl
@[simp] theorem clearBusy_errBusy (s : State) : (clearBusy s).errBusy = s.errBusy := rfl
@[simp] theorem clearBusy_arg0 (s : State) : (clearBusy s).arg0 = s.arg0 := rfl
@[simp] theorem clearBusy_arg1 (s : State) : (clearBusy s).arg1 = s.arg1 := rfl
@[simp] theorem clearBusy_result (s : State) : (clearBusy s).result = s.result := rfl
@[simp] theorem clearBusy_acc (s : State) : (clearBusy s).acc = s.acc := rfl
@[simp] theorem clearBusy_inflight (s : State) : (clearBusy s).inflight = s.inflight := rfl
@[simp] theorem clearBusy_pmem (s : State) : (clearBusy s).pmem = s.pmem := rfl
@[simp] theorem clearBusy_out (s : State) : (clearBusy s).out = s.out := rfl
@[simp] theorem clearBusy_sentLen (s : State) : (clearBusy s).sentLen = s.sentLen := rfl
@[simp] theorem clearBusy_ready (s : State) : (clearBusy s).ready = s.ready := rfl
@[simp] theorem clearBusy_driver (s : State) : (clearBusy s).driver = s.driver := rfl
@[simp] theorem clearBusy_sched (s : State) : (clearBusy s).sched = s.sched := rfl
@[simp] theorem clearBusy_reads (s : State) : (clearBusy s).reads = s.reads := rfl

/-! ### `writeStatus w` -/

@[simp] theorem writeStatus_busy (w : Word) (s : State) : (writeStatus w s).busy = s.busy := rfl
@[simp] theorem writeStatus_errOpcode (w : Word) (s : State) :
    (writeStatus w s).errOpcode = (s.errOpcode && !w.getLsbD 1) := rfl
@[simp] theorem writeStatus_errBusy (w : Word) (s : State) :
    (writeStatus w s).errBusy = (s.errBusy && !w.getLsbD 2) := rfl
@[simp] theorem writeStatus_arg0 (w : Word) (s : State) : (writeStatus w s).arg0 = s.arg0 := rfl
@[simp] theorem writeStatus_arg1 (w : Word) (s : State) : (writeStatus w s).arg1 = s.arg1 := rfl
@[simp] theorem writeStatus_result (w : Word) (s : State) : (writeStatus w s).result = s.result := rfl
@[simp] theorem writeStatus_acc (w : Word) (s : State) : (writeStatus w s).acc = s.acc := rfl
@[simp] theorem writeStatus_inflight (w : Word) (s : State) : (writeStatus w s).inflight = s.inflight := rfl
@[simp] theorem writeStatus_pmem (w : Word) (s : State) : (writeStatus w s).pmem = s.pmem := rfl
@[simp] theorem writeStatus_out (w : Word) (s : State) : (writeStatus w s).out = s.out := rfl
@[simp] theorem writeStatus_sentLen (w : Word) (s : State) : (writeStatus w s).sentLen = s.sentLen := rfl
@[simp] theorem writeStatus_ready (w : Word) (s : State) : (writeStatus w s).ready = s.ready := rfl
@[simp] theorem writeStatus_driver (w : Word) (s : State) : (writeStatus w s).driver = s.driver := rfl
@[simp] theorem writeStatus_sched (w : Word) (s : State) : (writeStatus w s).sched = s.sched := rfl
@[simp] theorem writeStatus_reads (w : Word) (s : State) : (writeStatus w s).reads = s.reads := rfl

/-! ### `raiseError .errOpcode` -/

@[simp] theorem raiseErrOpcode_busy (s : State) : (raiseError .errOpcode s).busy = s.busy := rfl
@[simp] theorem raiseErrOpcode_errOpcode (s : State) : (raiseError .errOpcode s).errOpcode = true := rfl
@[simp] theorem raiseErrOpcode_errBusy (s : State) : (raiseError .errOpcode s).errBusy = s.errBusy := rfl
@[simp] theorem raiseErrOpcode_arg0 (s : State) : (raiseError .errOpcode s).arg0 = s.arg0 := rfl
@[simp] theorem raiseErrOpcode_arg1 (s : State) : (raiseError .errOpcode s).arg1 = s.arg1 := rfl
@[simp] theorem raiseErrOpcode_result (s : State) : (raiseError .errOpcode s).result = s.result := rfl
@[simp] theorem raiseErrOpcode_acc (s : State) : (raiseError .errOpcode s).acc = s.acc := rfl
@[simp] theorem raiseErrOpcode_inflight (s : State) : (raiseError .errOpcode s).inflight = s.inflight := rfl
@[simp] theorem raiseErrOpcode_pmem (s : State) : (raiseError .errOpcode s).pmem = s.pmem := rfl
@[simp] theorem raiseErrOpcode_out (s : State) : (raiseError .errOpcode s).out = s.out := rfl
@[simp] theorem raiseErrOpcode_sentLen (s : State) : (raiseError .errOpcode s).sentLen = s.sentLen := rfl
@[simp] theorem raiseErrOpcode_ready (s : State) : (raiseError .errOpcode s).ready = s.ready := rfl
@[simp] theorem raiseErrOpcode_driver (s : State) : (raiseError .errOpcode s).driver = s.driver := rfl
@[simp] theorem raiseErrOpcode_sched (s : State) : (raiseError .errOpcode s).sched = s.sched := rfl
@[simp] theorem raiseErrOpcode_reads (s : State) : (raiseError .errOpcode s).reads = s.reads := rfl

/-! ### `raiseError .errBusy` -/

@[simp] theorem raiseErrBusy_busy (s : State) : (raiseError .errBusy s).busy = s.busy := rfl
@[simp] theorem raiseErrBusy_errOpcode (s : State) : (raiseError .errBusy s).errOpcode = s.errOpcode := rfl
@[simp] theorem raiseErrBusy_errBusy (s : State) : (raiseError .errBusy s).errBusy = true := rfl
@[simp] theorem raiseErrBusy_arg0 (s : State) : (raiseError .errBusy s).arg0 = s.arg0 := rfl
@[simp] theorem raiseErrBusy_arg1 (s : State) : (raiseError .errBusy s).arg1 = s.arg1 := rfl
@[simp] theorem raiseErrBusy_result (s : State) : (raiseError .errBusy s).result = s.result := rfl
@[simp] theorem raiseErrBusy_acc (s : State) : (raiseError .errBusy s).acc = s.acc := rfl
@[simp] theorem raiseErrBusy_inflight (s : State) : (raiseError .errBusy s).inflight = s.inflight := rfl
@[simp] theorem raiseErrBusy_pmem (s : State) : (raiseError .errBusy s).pmem = s.pmem := rfl
@[simp] theorem raiseErrBusy_out (s : State) : (raiseError .errBusy s).out = s.out := rfl
@[simp] theorem raiseErrBusy_sentLen (s : State) : (raiseError .errBusy s).sentLen = s.sentLen := rfl
@[simp] theorem raiseErrBusy_ready (s : State) : (raiseError .errBusy s).ready = s.ready := rfl
@[simp] theorem raiseErrBusy_driver (s : State) : (raiseError .errBusy s).driver = s.driver := rfl
@[simp] theorem raiseErrBusy_sched (s : State) : (raiseError .errBusy s).sched = s.sched := rfl
@[simp] theorem raiseErrBusy_reads (s : State) : (raiseError .errBusy s).reads = s.reads := rfl

/-! ### `emitByte b` -/

@[simp] theorem emitByte_busy (b : Byte) (s : State) : (emitByte b s).busy = s.busy := rfl
@[simp] theorem emitByte_errOpcode (b : Byte) (s : State) : (emitByte b s).errOpcode = s.errOpcode := rfl
@[simp] theorem emitByte_errBusy (b : Byte) (s : State) : (emitByte b s).errBusy = s.errBusy := rfl
@[simp] theorem emitByte_arg0 (b : Byte) (s : State) : (emitByte b s).arg0 = s.arg0 := rfl
@[simp] theorem emitByte_arg1 (b : Byte) (s : State) : (emitByte b s).arg1 = s.arg1 := rfl
@[simp] theorem emitByte_result (b : Byte) (s : State) : (emitByte b s).result = s.result := rfl
@[simp] theorem emitByte_acc (b : Byte) (s : State) : (emitByte b s).acc = s.acc := rfl
@[simp] theorem emitByte_inflight (b : Byte) (s : State) : (emitByte b s).inflight = s.inflight := rfl
@[simp] theorem emitByte_pmem (b : Byte) (s : State) : (emitByte b s).pmem = s.pmem := rfl
@[simp] theorem emitByte_out (b : Byte) (s : State) : (emitByte b s).out = s.out ++ [.byte b] := rfl
@[simp] theorem emitByte_sentLen (b : Byte) (s : State) : (emitByte b s).sentLen = s.sentLen := rfl
@[simp] theorem emitByte_ready (b : Byte) (s : State) : (emitByte b s).ready = s.ready := rfl
@[simp] theorem emitByte_driver (b : Byte) (s : State) : (emitByte b s).driver = s.driver := rfl
@[simp] theorem emitByte_sched (b : Byte) (s : State) : (emitByte b s).sched = s.sched := rfl
@[simp] theorem emitByte_reads (b : Byte) (s : State) : (emitByte b s).reads = s.reads := rfl

/-! ### `requestFlush` -/

@[simp] theorem requestFlush_busy (s : State) : (requestFlush s).busy = s.busy := rfl
@[simp] theorem requestFlush_errOpcode (s : State) : (requestFlush s).errOpcode = s.errOpcode := rfl
@[simp] theorem requestFlush_errBusy (s : State) : (requestFlush s).errBusy = s.errBusy := rfl
@[simp] theorem requestFlush_arg0 (s : State) : (requestFlush s).arg0 = s.arg0 := rfl
@[simp] theorem requestFlush_arg1 (s : State) : (requestFlush s).arg1 = s.arg1 := rfl
@[simp] theorem requestFlush_result (s : State) : (requestFlush s).result = s.result := rfl
@[simp] theorem requestFlush_acc (s : State) : (requestFlush s).acc = s.acc := rfl
@[simp] theorem requestFlush_inflight (s : State) : (requestFlush s).inflight = s.inflight := rfl
@[simp] theorem requestFlush_pmem (s : State) : (requestFlush s).pmem = s.pmem := rfl
@[simp] theorem requestFlush_out (s : State) : (requestFlush s).out = s.out ++ [.flush] := rfl
@[simp] theorem requestFlush_sentLen (s : State) : (requestFlush s).sentLen = s.sentLen := rfl
@[simp] theorem requestFlush_ready (s : State) : (requestFlush s).ready = s.ready := rfl
@[simp] theorem requestFlush_driver (s : State) : (requestFlush s).driver = s.driver := rfl
@[simp] theorem requestFlush_sched (s : State) : (requestFlush s).sched = s.sched := rfl
@[simp] theorem requestFlush_reads (s : State) : (requestFlush s).reads = s.reads := rfl

/-! ### `ackFlush` -/

@[simp] theorem ackFlush_busy (s : State) : (ackFlush s).busy = s.busy := rfl
@[simp] theorem ackFlush_errOpcode (s : State) : (ackFlush s).errOpcode = s.errOpcode := rfl
@[simp] theorem ackFlush_errBusy (s : State) : (ackFlush s).errBusy = s.errBusy := rfl
@[simp] theorem ackFlush_arg0 (s : State) : (ackFlush s).arg0 = s.arg0 := rfl
@[simp] theorem ackFlush_arg1 (s : State) : (ackFlush s).arg1 = s.arg1 := rfl
@[simp] theorem ackFlush_result (s : State) : (ackFlush s).result = s.result := rfl
@[simp] theorem ackFlush_acc (s : State) : (ackFlush s).acc = s.acc := rfl
@[simp] theorem ackFlush_inflight (s : State) : (ackFlush s).inflight = s.inflight := rfl
@[simp] theorem ackFlush_pmem (s : State) : (ackFlush s).pmem = s.pmem := rfl
@[simp] theorem ackFlush_out (s : State) : (ackFlush s).out = s.out := rfl
@[simp] theorem ackFlush_sentLen (s : State) : (ackFlush s).sentLen = s.out.length := rfl
@[simp] theorem ackFlush_ready (s : State) : (ackFlush s).ready = s.ready := rfl
@[simp] theorem ackFlush_driver (s : State) : (ackFlush s).driver = s.driver := rfl
@[simp] theorem ackFlush_sched (s : State) : (ackFlush s).sched = s.sched := rfl
@[simp] theorem ackFlush_reads (s : State) : (ackFlush s).reads = s.reads := rfl

/-! ### `accept i p` -/

@[simp] theorem accept_busy (i : Instr) (p : Word → Word → Word → Progress) (s : State) :
    (accept i p s).busy = true := rfl
@[simp] theorem accept_errOpcode (i : Instr) (p : Word → Word → Word → Progress) (s : State) :
    (accept i p s).errOpcode = s.errOpcode := rfl
@[simp] theorem accept_errBusy (i : Instr) (p : Word → Word → Word → Progress) (s : State) :
    (accept i p s).errBusy = s.errBusy := rfl
@[simp] theorem accept_arg0 (i : Instr) (p : Word → Word → Word → Progress) (s : State) :
    (accept i p s).arg0 = s.arg0 := rfl
@[simp] theorem accept_arg1 (i : Instr) (p : Word → Word → Word → Progress) (s : State) :
    (accept i p s).arg1 = s.arg1 := rfl
@[simp] theorem accept_result (i : Instr) (p : Word → Word → Word → Progress) (s : State) :
    (accept i p s).result = s.result := rfl
@[simp] theorem accept_acc (i : Instr) (p : Word → Word → Word → Progress) (s : State) :
    (accept i p s).acc = s.acc := rfl
@[simp] theorem accept_inflight (i : Instr) (p : Word → Word → Word → Progress) (s : State) :
    (accept i p s).inflight = some ⟨opcode i, s.arg0, s.arg1, p s.acc s.arg0 s.arg1⟩ := rfl
@[simp] theorem accept_pmem (i : Instr) (p : Word → Word → Word → Progress) (s : State) :
    (accept i p s).pmem = s.pmem := rfl
@[simp] theorem accept_out (i : Instr) (p : Word → Word → Word → Progress) (s : State) :
    (accept i p s).out = s.out := rfl
@[simp] theorem accept_sentLen (i : Instr) (p : Word → Word → Word → Progress) (s : State) :
    (accept i p s).sentLen = s.sentLen := rfl
@[simp] theorem accept_ready (i : Instr) (p : Word → Word → Word → Progress) (s : State) :
    (accept i p s).ready = s.ready := rfl
@[simp] theorem accept_driver (i : Instr) (p : Word → Word → Word → Progress) (s : State) :
    (accept i p s).driver = s.driver := rfl
@[simp] theorem accept_sched (i : Instr) (p : Word → Word → Word → Progress) (s : State) :
    (accept i p s).sched = s.sched := rfl
@[simp] theorem accept_reads (i : Instr) (p : Word → Word → Word → Progress) (s : State) :
    (accept i p s).reads = s.reads := rfl

/-! ### `complete v` -/

@[simp] theorem complete_busy (v : Writes) (s : State) : (complete v s).busy = false := rfl
@[simp] theorem complete_errOpcode (v : Writes) (s : State) : (complete v s).errOpcode = s.errOpcode := rfl
@[simp] theorem complete_errBusy (v : Writes) (s : State) : (complete v s).errBusy = s.errBusy := rfl
@[simp] theorem complete_arg0 (v : Writes) (s : State) : (complete v s).arg0 = s.arg0 := rfl
@[simp] theorem complete_arg1 (v : Writes) (s : State) : (complete v s).arg1 = s.arg1 := rfl
@[simp] theorem complete_result (v : Writes) (s : State) : (complete v s).result = v.result.getD s.result := rfl
@[simp] theorem complete_acc (v : Writes) (s : State) : (complete v s).acc = v.acc.getD s.acc := rfl
@[simp] theorem complete_inflight (v : Writes) (s : State) : (complete v s).inflight = none := rfl
@[simp] theorem complete_pmem (v : Writes) (s : State) : (complete v s).pmem = s.pmem := rfl
@[simp] theorem complete_out (v : Writes) (s : State) : (complete v s).out = s.out := rfl
@[simp] theorem complete_sentLen (v : Writes) (s : State) : (complete v s).sentLen = s.sentLen := rfl
@[simp] theorem complete_ready (v : Writes) (s : State) : (complete v s).ready = s.ready := rfl
@[simp] theorem complete_driver (v : Writes) (s : State) : (complete v s).driver = s.driver := rfl
@[simp] theorem complete_sched (v : Writes) (s : State) : (complete v s).sched = s.sched := rfl
@[simp] theorem complete_reads (v : Writes) (s : State) : (complete v s).reads = s.reads := rfl

/-! ### `goOn f p` -/

@[simp] theorem goOn_busy (f : InFlight) (p : Progress) (s : State) : (goOn f p s).busy = s.busy := rfl
@[simp] theorem goOn_errOpcode (f : InFlight) (p : Progress) (s : State) : (goOn f p s).errOpcode = s.errOpcode := rfl
@[simp] theorem goOn_errBusy (f : InFlight) (p : Progress) (s : State) : (goOn f p s).errBusy = s.errBusy := rfl
@[simp] theorem goOn_arg0 (f : InFlight) (p : Progress) (s : State) : (goOn f p s).arg0 = s.arg0 := rfl
@[simp] theorem goOn_arg1 (f : InFlight) (p : Progress) (s : State) : (goOn f p s).arg1 = s.arg1 := rfl
@[simp] theorem goOn_result (f : InFlight) (p : Progress) (s : State) : (goOn f p s).result = s.result := rfl
@[simp] theorem goOn_acc (f : InFlight) (p : Progress) (s : State) : (goOn f p s).acc = s.acc := rfl
@[simp] theorem goOn_inflight (f : InFlight) (p : Progress) (s : State) :
    (goOn f p s).inflight = some ⟨f.lop, f.la0, f.la1, p⟩ := rfl
@[simp] theorem goOn_pmem (f : InFlight) (p : Progress) (s : State) : (goOn f p s).pmem = s.pmem := rfl
@[simp] theorem goOn_out (f : InFlight) (p : Progress) (s : State) : (goOn f p s).out = s.out := rfl
@[simp] theorem goOn_sentLen (f : InFlight) (p : Progress) (s : State) : (goOn f p s).sentLen = s.sentLen := rfl
@[simp] theorem goOn_ready (f : InFlight) (p : Progress) (s : State) : (goOn f p s).ready = s.ready := rfl
@[simp] theorem goOn_driver (f : InFlight) (p : Progress) (s : State) : (goOn f p s).driver = s.driver := rfl
@[simp] theorem goOn_sched (f : InFlight) (p : Progress) (s : State) : (goOn f p s).sched = s.sched := rfl
@[simp] theorem goOn_reads (f : InFlight) (p : Progress) (s : State) : (goOn f p s).reads = s.reads := rfl

/-! ### `readNext f k c buf` -/

@[simp] theorem readNext_busy (f : InFlight) (k : Nat) (c : Word) (buf : List Byte) (s : State) :
    (readNext f k c buf s).busy = s.busy := rfl
@[simp] theorem readNext_errOpcode (f : InFlight) (k : Nat) (c : Word) (buf : List Byte) (s : State) :
    (readNext f k c buf s).errOpcode = s.errOpcode := rfl
@[simp] theorem readNext_errBusy (f : InFlight) (k : Nat) (c : Word) (buf : List Byte) (s : State) :
    (readNext f k c buf s).errBusy = s.errBusy := rfl
@[simp] theorem readNext_arg0 (f : InFlight) (k : Nat) (c : Word) (buf : List Byte) (s : State) :
    (readNext f k c buf s).arg0 = s.arg0 := rfl
@[simp] theorem readNext_arg1 (f : InFlight) (k : Nat) (c : Word) (buf : List Byte) (s : State) :
    (readNext f k c buf s).arg1 = s.arg1 := rfl
@[simp] theorem readNext_result (f : InFlight) (k : Nat) (c : Word) (buf : List Byte) (s : State) :
    (readNext f k c buf s).result = s.result := rfl
@[simp] theorem readNext_acc (f : InFlight) (k : Nat) (c : Word) (buf : List Byte) (s : State) :
    (readNext f k c buf s).acc = s.acc := rfl
@[simp] theorem readNext_inflight (f : InFlight) (k : Nat) (c : Word) (buf : List Byte) (s : State) :
    (readNext f k c buf s).inflight = some ⟨f.lop, f.la0, f.la1, .reading (k + 1) (crcStep c (s.pmem.read (f.base + BitVec.ofNat 32 k)))
      (buf ++ [s.pmem.read (f.base + BitVec.ofNat 32 k)])⟩ := rfl
@[simp] theorem readNext_pmem (f : InFlight) (k : Nat) (c : Word) (buf : List Byte) (s : State) :
    (readNext f k c buf s).pmem = s.pmem := rfl
@[simp] theorem readNext_out (f : InFlight) (k : Nat) (c : Word) (buf : List Byte) (s : State) :
    (readNext f k c buf s).out = s.out := rfl
@[simp] theorem readNext_sentLen (f : InFlight) (k : Nat) (c : Word) (buf : List Byte) (s : State) :
    (readNext f k c buf s).sentLen = s.sentLen := rfl
@[simp] theorem readNext_ready (f : InFlight) (k : Nat) (c : Word) (buf : List Byte) (s : State) :
    (readNext f k c buf s).ready = s.ready := rfl
@[simp] theorem readNext_driver (f : InFlight) (k : Nat) (c : Word) (buf : List Byte) (s : State) :
    (readNext f k c buf s).driver = s.driver := rfl
@[simp] theorem readNext_sched (f : InFlight) (k : Nat) (c : Word) (buf : List Byte) (s : State) :
    (readNext f k c buf s).sched = s.sched := rfl
@[simp] theorem readNext_reads (f : InFlight) (k : Nat) (c : Word) (buf : List Byte) (s : State) :
    (readNext f k c buf s).reads = s.reads := rfl

/-! ### `recordRead v` -/

@[simp] theorem recordRead_busy (v : Word) (s : State) : (recordRead v s).busy = s.busy := rfl
@[simp] theorem recordRead_errOpcode (v : Word) (s : State) : (recordRead v s).errOpcode = s.errOpcode := rfl
@[simp] theorem recordRead_errBusy (v : Word) (s : State) : (recordRead v s).errBusy = s.errBusy := rfl
@[simp] theorem recordRead_arg0 (v : Word) (s : State) : (recordRead v s).arg0 = s.arg0 := rfl
@[simp] theorem recordRead_arg1 (v : Word) (s : State) : (recordRead v s).arg1 = s.arg1 := rfl
@[simp] theorem recordRead_result (v : Word) (s : State) : (recordRead v s).result = s.result := rfl
@[simp] theorem recordRead_acc (v : Word) (s : State) : (recordRead v s).acc = s.acc := rfl
@[simp] theorem recordRead_inflight (v : Word) (s : State) : (recordRead v s).inflight = s.inflight := rfl
@[simp] theorem recordRead_pmem (v : Word) (s : State) : (recordRead v s).pmem = s.pmem := rfl
@[simp] theorem recordRead_out (v : Word) (s : State) : (recordRead v s).out = s.out := rfl
@[simp] theorem recordRead_sentLen (v : Word) (s : State) : (recordRead v s).sentLen = s.sentLen := rfl
@[simp] theorem recordRead_ready (v : Word) (s : State) : (recordRead v s).ready = s.ready := rfl
@[simp] theorem recordRead_driver (v : Word) (s : State) : (recordRead v s).driver = s.driver := rfl
@[simp] theorem recordRead_sched (v : Word) (s : State) : (recordRead v s).sched = s.sched := rfl
@[simp] theorem recordRead_reads (v : Word) (s : State) : (recordRead v s).reads = s.reads ++ [v] := rfl

/-! ### `resetBlock` -/

@[simp] theorem resetBlock_busy (s : State) : (resetBlock s).busy = false := rfl
@[simp] theorem resetBlock_errOpcode (s : State) : (resetBlock s).errOpcode = false := rfl
@[simp] theorem resetBlock_errBusy (s : State) : (resetBlock s).errBusy = false := rfl
@[simp] theorem resetBlock_arg0 (s : State) : (resetBlock s).arg0 = 0x00000000#32 := rfl
@[simp] theorem resetBlock_arg1 (s : State) : (resetBlock s).arg1 = 0x00000000#32 := rfl
@[simp] theorem resetBlock_result (s : State) : (resetBlock s).result = 0x00000000#32 := rfl
@[simp] theorem resetBlock_acc (s : State) : (resetBlock s).acc = 0xFFFFFFFF#32 := rfl
@[simp] theorem resetBlock_inflight (s : State) : (resetBlock s).inflight = none := rfl
@[simp] theorem resetBlock_pmem (s : State) : (resetBlock s).pmem = s.pmem := rfl
@[simp] theorem resetBlock_out (s : State) : (resetBlock s).out = s.out := rfl
@[simp] theorem resetBlock_sentLen (s : State) : (resetBlock s).sentLen = s.sentLen := rfl
@[simp] theorem resetBlock_ready (s : State) : (resetBlock s).ready = s.ready := rfl
@[simp] theorem resetBlock_driver (s : State) : (resetBlock s).driver = s.driver := rfl
@[simp] theorem resetBlock_sched (s : State) : (resetBlock s).sched = s.sched := rfl
@[simp] theorem resetBlock_reads (s : State) : (resetBlock s).reads = s.reads := rfl

/-! ### `presentWord w` -/

@[simp] theorem presentWord_busy (w : Word) (s : State) : (presentWord w s).busy = false := rfl
@[simp] theorem presentWord_errOpcode (w : Word) (s : State) : (presentWord w s).errOpcode = s.errOpcode := rfl
@[simp] theorem presentWord_errBusy (w : Word) (s : State) : (presentWord w s).errBusy = s.errBusy := rfl
@[simp] theorem presentWord_arg0 (w : Word) (s : State) : (presentWord w s).arg0 = s.arg0 := rfl
@[simp] theorem presentWord_arg1 (w : Word) (s : State) : (presentWord w s).arg1 = s.arg1 := rfl
@[simp] theorem presentWord_result (w : Word) (s : State) : (presentWord w s).result = s.result := rfl
@[simp] theorem presentWord_acc (w : Word) (s : State) : (presentWord w s).acc = s.acc := rfl
@[simp] theorem presentWord_inflight (w : Word) (s : State) : (presentWord w s).inflight = none := rfl
@[simp] theorem presentWord_pmem (w : Word) (s : State) : (presentWord w s).pmem = s.pmem := rfl
@[simp] theorem presentWord_out (w : Word) (s : State) : (presentWord w s).out = s.out := rfl
@[simp] theorem presentWord_sentLen (w : Word) (s : State) : (presentWord w s).sentLen = s.sentLen := rfl
@[simp] theorem presentWord_ready (w : Word) (s : State) : (presentWord w s).ready = s.ready := rfl
@[simp] theorem presentWord_driver (w : Word) (s : State) :
    (presentWord w s).driver = .write 4 0x00 w :: s.driver := rfl
@[simp] theorem presentWord_sched (w : Word) (s : State) : (presentWord w s).sched = .driver :: s.sched := rfl
@[simp] theorem presentWord_reads (w : Word) (s : State) : (presentWord w s).reads = s.reads := rfl

end Sys2Proof.Machine
end

