-- ==== Sys2Proof/Laws/Engine.lean ====
section
/-! SUPPORT. Everything a small step of the engine can do, said once; `advance` as the closure of the small steps;
and the two loops of the engine, reading and emitting, in closed form. -/

namespace Sys2Proof.Machine

@[simp] theorem decodeOpcode_opcode (i : Instr) : decodeOpcode (opcode i) = some i := by
  cases i <;> rfl

/-! ### Small steps -/

/-- A small step of the engine is one of five, each of which spends one credit of one agent. -/
theorem engineStep_cases {s t : State} (h : engineStep s = some t) :
    ∃ f, s.inflight = some f ∧
      ((∃ k c buf m, f.current = .reading k c buf ∧ s.ready.memory.spend = some m ∧
          t = readNext f k c buf (setReady { s.ready with memory := m } s)) ∨
        (∃ wr e, f.current = .emitting [] wr ∧ s.ready.engine.spend = some e ∧
          t = complete wr (setReady { s.ready with engine := e } s)) ∨
        (∃ b todo wr k, f.current = .emitting (.byte b :: todo) wr ∧ s.ready.sink.spend = some k ∧
          t = goOn f (.emitting todo wr) (emitByte b (setReady { s.ready with sink := k } s))) ∨
        (∃ todo wr e, f.current = .emitting (.flush :: todo) wr ∧ s.ready.engine.spend = some e ∧
          t = goOn f (.awaitingAck todo wr) (requestFlush (setReady { s.ready with engine := e } s))) ∨
        (∃ todo wr a, f.current = .awaitingAck todo wr ∧ s.ready.flush.spend = some a ∧
          t = goOn f (.emitting todo wr) (ackFlush (setReady { s.ready with flush := a } s)))) := by
  unfold engineStep at h
  split at h
  · cases h
  · rename_i f hf
    refine ⟨f, hf, ?_⟩
    split at h <;> rename_i hc <;> obtain ⟨x, hx, rfl⟩ := Option.map_eq_some_iff.1 h
    · exact .inl ⟨_, _, _, x, hc, hx, rfl⟩
    · exact .inr (.inl ⟨_, x, hc, hx, rfl⟩)
    · exact .inr (.inr (.inl ⟨_, _, _, x, hc, hx, rfl⟩))
    · exact .inr (.inr (.inr (.inl ⟨_, _, x, hc, hx, rfl⟩)))
    · exact .inr (.inr (.inr (.inr ⟨_, _, x, hc, hx, rfl⟩)))

theorem InFlight.current_reading {f : InFlight} {k : Nat} {c : Word} {buf : List Byte}
    (h : f.current = .reading k c buf) : f.progress = .reading k c buf ∧ k < f.count := by
  unfold InFlight.current at h
  split at h
  · rename_i k' c' buf' hp
    split at h
    · cases h
      exact ⟨hp, by assumption⟩
    · unfold InFlight.afterRead at h
      split at h
      · rename_i i _
        cases i <;> simp [afterReadOf, afterReadCrcBuf, afterReadChunk] at h
      · cases h
  · cases h
  · cases h

/-- What the progress goes on to does not depend on how far it was stored. -/
theorem InFlight.current_mk_emitting (f : InFlight) (todo : List OutEvent) (wr : Writes) :
    InFlight.current ⟨f.lop, f.la0, f.la1, .emitting todo wr⟩ = .emitting todo wr := rfl

theorem InFlight.current_mk_awaitingAck (f : InFlight) (todo : List OutEvent) (wr : Writes) :
    InFlight.current ⟨f.lop, f.la0, f.la1, .awaitingAck todo wr⟩ = .awaitingAck todo wr := rfl

theorem InFlight.afterRead_work (f : InFlight) (c : Word) (buf : List Byte) (n : Nat) :
    (f.afterRead c buf).work n ≤ 2 * buf.length + 29 := by
  unfold InFlight.afterRead
  split
  · rename_i i _
    cases i <;> simp [afterReadOf, afterReadCrcBuf, afterReadChunk, Progress.work]
    omega
  · simp [Progress.work]

/-- The bound on the work left falls with every small step. -/
theorem engineStep_work {s t : State} (h : engineStep s = some t) : engineWork t < engineWork s := by
  obtain ⟨f, hf, h⟩ := engineStep_cases h
  rcases h with ⟨k, c, buf, m, hc, -, rfl⟩ | ⟨wr, e, hc, -, rfl⟩ | ⟨b, todo, wr, k, hc, -, rfl⟩ |
    ⟨todo, wr, e, hc, -, rfl⟩ | ⟨todo, wr, a, hc, -, rfl⟩
  · have hk := (InFlight.current_reading hc).2
    simp only [engineWork, hf, hc, readNext_inflight]
    set b := s.pmem.read (f.base + BitVec.ofNat 32 k)
    have hcount : ∀ p, InFlight.count ⟨f.lop, f.la0, f.la1, p⟩ = f.count := fun _ => rfl
    by_cases h1 : k + 1 < f.count
    · simp only [InFlight.current, hcount, h1, if_true, Progress.work, List.length_append, List.length_singleton]
      omega
    · have := InFlight.afterRead_work f (crcStep c b) (buf ++ [b]) f.count
      simp only [InFlight.current, hcount, h1, if_false, Progress.work, List.length_append,
        List.length_singleton] at this ⊢
      exact lt_of_le_of_lt this (by omega)
  · simp [engineWork, hf, hc, Progress.work]
  · simp [engineWork, hf, hc, Progress.work, InFlight.current_mk_emitting]
  · simp only [engineWork, hf, hc, Progress.work, goOn_inflight, InFlight.current_mk_awaitingAck, List.length_cons]
    omega
  · simp [engineWork, hf, hc, Progress.work, InFlight.current_mk_emitting]

/-! ### `advance` -/

theorem runEngine_enough (n k : Nat) (s : State) (hn : engineWork s ≤ n) (hk : engineWork s ≤ k) :
    runEngine n s = runEngine k s := by
  induction n generalizing k s with
  | zero =>
    cases k with
    | zero => rfl
    | succ k =>
      cases h : engineStep s with
      | none => simp [runEngine, h]
      | some t => exact absurd (engineStep_work h) (by omega)
  | succ n ih =>
    cases k with
    | zero =>
      cases h : engineStep s with
      | none => simp [runEngine, h]
      | some t => exact absurd (engineStep_work h) (by omega)
    | succ k =>
      cases h : engineStep s with
      | none => simp [runEngine, h]
      | some t =>
        have := engineStep_work h
        simp only [runEngine, h]
        exact ih k t (by omega) (by omega)

/-- `advance` takes an enabled small step and goes on. -/
theorem advance_of_step {s t : State} (h : engineStep s = some t) : advance s = advance t := by
  have hw := engineStep_work h
  unfold advance
  obtain ⟨n, hn⟩ : ∃ n, engineWork s = n + 1 := ⟨engineWork s - 1, by omega⟩
  rw [hn, runEngine, h]
  exact runEngine_enough _ _ _ (by omega) le_rfl

/-- `advance` stays where no small step is enabled. -/
theorem advance_of_stuck {s : State} (h : engineStep s = none) : advance s = s := by
  unfold advance
  cases engineWork s with
  | zero => rfl
  | succ n => simp [runEngine, h]

/-- What holds and is kept by every small step holds after `advance`. -/
theorem advance_induction (P : State → Prop) (hP : ∀ s t, P s → engineStep s = some t → P t) {s : State}
    (h : P s) : P (advance s) := by
  unfold advance
  generalize engineWork s = n
  induction n generalizing s with
  | zero => exact h
  | succ n ih =>
    cases hs : engineStep s with
    | none => simpa [runEngine, hs] using h
    | some t => simpa [runEngine, hs] using ih (hP s t h hs)

/-- After `advance` no small step of the engine is enabled (log entry 5). -/
theorem engineStep_advance (s : State) : engineStep (advance s) = none := by
  by_contra hne
  obtain ⟨t, ht⟩ := Option.ne_none_iff_exists'.1 hne
  have hidem : advance s = advance (advance s) :=
    advance_induction (P := fun u => advance s = advance u) (fun _ _ hu h => hu.trans (advance_of_step h)) rfl
  have hle : engineWork (advance t) ≤ engineWork t :=
    advance_induction (P := fun u => engineWork u ≤ engineWork t)
      (fun _ _ hu h => (engineStep_work h).le.trans hu) le_rfl
  have hlt := engineStep_work ht
  rw [← advance_of_step ht, ← hidem] at hle
  omega

/-- A change of the state that commutes with every small step commutes with `advance`. -/
theorem advance_comm (g : State → State) (hg : ∀ s, engineStep (g s) = (engineStep s).map g) (s : State) :
    advance (g s) = g (advance s) := by
  have h : advance (g s) = advance (g (advance s)) :=
    advance_induction (P := fun t => advance (g s) = advance (g t))
      (fun a b ha hab => ha.trans (advance_of_step (by rw [hg, hab]; rfl))) rfl
  rw [h]
  exact advance_of_stuck (by rw [hg, engineStep_advance]; rfl)

/-! ### What the engine leaves alone, and how the output grows -/

/-- A small step leaves the driver's registers, the error flags, the payload memory and the schedule alone. -/
theorem engineStep_frame {s t : State} (h : engineStep s = some t) :
    t.errOpcode = s.errOpcode ∧ t.errBusy = s.errBusy ∧ t.arg0 = s.arg0 ∧ t.arg1 = s.arg1 ∧
      t.pmem = s.pmem ∧ t.driver = s.driver ∧ t.sched = s.sched ∧ t.reads = s.reads := by
  obtain ⟨f, -, h⟩ := engineStep_cases h
  rcases h with ⟨k, c, buf, m, -, -, rfl⟩ | ⟨wr, e, -, -, rfl⟩ | ⟨b, todo, wr, k, -, -, rfl⟩ |
    ⟨todo, wr, e, -, -, rfl⟩ | ⟨todo, wr, a, -, -, rfl⟩ <;> simp

/-- `advance` leaves them alone too. -/
theorem advance_frame (s : State) :
    (advance s).errOpcode = s.errOpcode ∧ (advance s).errBusy = s.errBusy ∧ (advance s).arg0 = s.arg0 ∧
      (advance s).arg1 = s.arg1 ∧ (advance s).pmem = s.pmem ∧ (advance s).driver = s.driver ∧
      (advance s).sched = s.sched ∧ (advance s).reads = s.reads := by
  refine advance_induction
    (fun t => t.errOpcode = s.errOpcode ∧ t.errBusy = s.errBusy ∧ t.arg0 = s.arg0 ∧ t.arg1 = s.arg1 ∧
      t.pmem = s.pmem ∧ t.driver = s.driver ∧ t.sched = s.sched ∧ t.reads = s.reads)
    (fun t u ht hu => ?_) (by simp)
  have := engineStep_frame hu
  simpa only [this] using ht

/-- A small step only appends to `OUT` (20_memory.md R59). -/
theorem engineStep_out {s t : State} (h : engineStep s = some t) : s.out <+: t.out := by
  obtain ⟨f, -, h⟩ := engineStep_cases h
  rcases h with ⟨k, c, buf, m, -, -, rfl⟩ | ⟨wr, e, -, -, rfl⟩ | ⟨b, todo, wr, k, -, -, rfl⟩ |
    ⟨todo, wr, e, -, -, rfl⟩ | ⟨todo, wr, a, -, -, rfl⟩ <;> simp

/-! ### The loops in closed form -/

theorem Credit.spend_of_covers_succ {c : Credit} {n : Nat} (h : c.covers (n + 1) = true) :
    ∃ c', c.spend = some c' ∧ c'.covers n = true ∧ ∀ k, c'.less k = c.less (k + 1) := by
  cases c with
  | unlimited => exact ⟨.unlimited, rfl, rfl, fun _ => rfl⟩
  | upTo m =>
    cases m with
    | zero => simp [Credit.covers] at h
    | succ m =>
      exact ⟨.upTo m, rfl, by simpa [Credit.covers] using h, fun k => by simp [Credit.less]⟩

@[simp] theorem Credit.less_zero (c : Credit) : c.less 0 = c := by
  cases c <;> rfl

/-- The emitting loop: with a sink that accepts them all, the bytes at the head of the events to emit go out. -/
theorem advance_emit_bytes (bs : List Byte) (rest : List OutEvent) (wr : Writes) (f : InFlight) (s : State)
    (hf : s.inflight = some ⟨f.lop, f.la0, f.la1, .emitting (byteEvents bs ++ rest) wr⟩)
    (hs : s.ready.sink.covers bs.length = true) :
    advance s =
      advance
        { s with
          inflight := some ⟨f.lop, f.la0, f.la1, .emitting rest wr⟩
          out := s.out ++ byteEvents bs
          ready := { s.ready with sink := s.ready.sink.less bs.length } } := by
  induction bs generalizing s with
  | nil =>
    congr 1
    cases s
    simp_all
  | cons b bs ih =>
    obtain ⟨c', hc, hcov, hless⟩ := Credit.spend_of_covers_succ hs
    have hstep : engineStep s =
        some (goOn f (.emitting (byteEvents bs ++ rest) wr)
          (emitByte b (setReady { s.ready with sink := c' } s))) := by
      simp [engineStep, hf, InFlight.current, hc, goOn]
    rw [advance_of_step hstep, ih _ (by simp) hcov]
    congr 1
    simp [goOn, emitByte, hless]

/-- The reading loop: with a memory that answers, the next `j` bytes of the range are read and folded. -/
theorem advance_read (j k : Nat) (c : Word) (buf : List Byte) (f : InFlight) (s : State)
    (hf : s.inflight = some ⟨f.lop, f.la0, f.la1, .reading k c buf⟩) (hj : k + j ≤ f.count)
    (hm : s.ready.memory.covers j = true) :
    advance s =
      advance
        { s with
          inflight := some ⟨f.lop, f.la0, f.la1, .reading (k + j)
            (crcFold c (s.pmem.bytes (f.base + BitVec.ofNat 32 k) j))
            (buf ++ s.pmem.bytes (f.base + BitVec.ofNat 32 k) j)⟩
          ready := { s.ready with memory := s.ready.memory.less j } } := by
  induction j generalizing k c buf s with
  | zero =>
    congr 1
    cases s
    simp_all
  | succ j ih =>
    obtain ⟨c', hc, hcov, hless⟩ := Credit.spend_of_covers_succ hm
    have hcount : InFlight.count ⟨f.lop, f.la0, f.la1, .reading k c buf⟩ = f.count := rfl
    have hstep : engineStep s =
        some (readNext f k c buf (setReady { s.ready with memory := c' } s)) := by
      simp [engineStep, hf, InFlight.current, hc, hcount, show k < f.count by omega, readNext, goOn, InFlight.base]
    have hbytes : s.pmem.bytes (f.base + BitVec.ofNat 32 k) (j + 1) =
        s.pmem.read (f.base + BitVec.ofNat 32 k) :: s.pmem.bytes (f.base + BitVec.ofNat 32 (k + 1)) j := by
      rw [Nat.add_comm j 1, Memory.bytes_add, BitVec.add_assoc, ← BitVec.ofNat_add]
      simp [Memory.bytes]
    rw [advance_of_step hstep, ih (k + 1) _ _ _ (readNext_inflight ..) (by omega) (by simpa using hcov)]
    congr 1
    simp [readNext, goOn, hless, hbytes, Nat.add_comm, Nat.add_left_comm]

/-- The completion: with nothing left to emit and one step of the engine's own, the command completes. -/
theorem advance_complete (wr : Writes) (f : InFlight) (s : State) (hf : s.inflight = some f)
    (hc : f.current = .emitting [] wr) (he : s.ready.engine.covers 1 = true) :
    advance s = complete wr (setReady { s.ready with engine := s.ready.engine.less 1 } s) := by
  obtain ⟨c', hs, -, hless⟩ := Credit.spend_of_covers_succ (n := 0) he
  have hstep : engineStep s = some (complete wr (setReady { s.ready with engine := c' } s)) := by
    simp [engineStep, hf, hc, hs]
  rw [advance_of_step hstep, advance_of_stuck (by simp [engineStep]), ← hless 0, Credit.less_zero]

/-- The emitting loop of a command that has just read its last payload byte. -/
theorem advance_emit_current (b : Byte) (bs : List Byte) (rest : List OutEvent) (wr : Writes) (f : InFlight)
    (s : State) (hf : s.inflight = some f) (hc : f.current = .emitting (byteEvents (b :: bs) ++ rest) wr)
    (hs : s.ready.sink.covers (b :: bs).length = true) :
    advance s =
      advance
        { s with
          inflight := some ⟨f.lop, f.la0, f.la1, .emitting rest wr⟩
          out := s.out ++ byteEvents (b :: bs)
          ready := { s.ready with sink := s.ready.sink.less (b :: bs).length } } := by
  obtain ⟨c', hcr, hcov, hless⟩ := Credit.spend_of_covers_succ hs
  have hstep : engineStep s =
      some (goOn f (.emitting (byteEvents bs ++ rest) wr)
        (emitByte b (setReady { s.ready with sink := c' } s))) := by
    simp [engineStep, hf, hc, hcr]
  rw [advance_of_step hstep, advance_emit_bytes bs rest wr f _ (by simp) hcov]
  congr 1
  simp [goOn, emitByte, hless]

/-- The flush: the request by the engine, then the sink's acknowledgment of everything put out so far. -/
theorem advance_flush (rest : List OutEvent) (wr : Writes) (f : InFlight) (s : State)
    (hf : s.inflight = some ⟨f.lop, f.la0, f.la1, .emitting (.flush :: rest) wr⟩)
    (he : s.ready.engine.covers 1 = true) (ha : s.ready.flush.covers 1 = true) :
    advance s =
      advance
        { s with
          inflight := some ⟨f.lop, f.la0, f.la1, .emitting rest wr⟩
          out := s.out ++ [.flush]
          sentLen := (s.out ++ [OutEvent.flush]).length
          ready := { s.ready with engine := s.ready.engine.less 1, flush := s.ready.flush.less 1 } } := by
  obtain ⟨e, hse, -, hle⟩ := Credit.spend_of_covers_succ (n := 0) he
  obtain ⟨a, hsa, -, hla⟩ := Credit.spend_of_covers_succ (n := 0) ha
  have h1 : engineStep s =
      some (goOn f (.awaitingAck rest wr) (requestFlush (setReady { s.ready with engine := e } s))) := by
    simp [engineStep, hf, InFlight.current, hse, goOn]
  have h2 : engineStep
      (goOn f (.awaitingAck rest wr) (requestFlush (setReady { s.ready with engine := e } s))) =
      some (goOn f (.emitting rest wr) (ackFlush (setReady { s.ready with engine := e, flush := a }
        (goOn f (.awaitingAck rest wr) (requestFlush (setReady { s.ready with engine := e } s)))))) := by
    simp [engineStep, InFlight.current, hsa, goOn, requestFlush]
  rw [advance_of_step h1, advance_of_step h2]
  congr 1
  simp [goOn, requestFlush, ackFlush, ← hle 0, ← hla 0]

end Sys2Proof.Machine
end

