-- ==== Sys2Proof/Laws/PerInstr.lean ====
section
/-! SUPPORT. Statements about every command as syntax, one lemma per constructor. -/

/-- The opcode of a command is read back as that command, and its word is well formed (30_encoding.md R80, R81). -/
def Sys2Proof.Laws.OpcodeMap.Statement (i : Sys2Proof.Instr) : Prop :=
  Sys2Proof.decodeOpcode (Sys2Proof.opcode i) = some i ∧
    Sys2Proof.WellFormed.word (Sys2Proof.encode i) = true

theorem Sys2Proof.Laws.OpcodeMap.crcInit : Sys2Proof.Laws.OpcodeMap.Statement .crcInit := ⟨rfl, rfl⟩

theorem Sys2Proof.Laws.OpcodeMap.crcFeed : Sys2Proof.Laws.OpcodeMap.Statement .crcFeed := ⟨rfl, rfl⟩

theorem Sys2Proof.Laws.OpcodeMap.crcBuf : Sys2Proof.Laws.OpcodeMap.Statement .crcBuf := ⟨rfl, rfl⟩

theorem Sys2Proof.Laws.OpcodeMap.tblRead : Sys2Proof.Laws.OpcodeMap.Statement .tblRead := ⟨rfl, rfl⟩

theorem Sys2Proof.Laws.OpcodeMap.put16 : Sys2Proof.Laws.OpcodeMap.Statement .put16 := ⟨rfl, rfl⟩

theorem Sys2Proof.Laws.OpcodeMap.put32 : Sys2Proof.Laws.OpcodeMap.Statement .put32 := ⟨rfl, rfl⟩

theorem Sys2Proof.Laws.OpcodeMap.hdr : Sys2Proof.Laws.OpcodeMap.Statement .hdr := ⟨rfl, rfl⟩

theorem Sys2Proof.Laws.OpcodeMap.chunk : Sys2Proof.Laws.OpcodeMap.Statement .chunk := ⟨rfl, rfl⟩
end

