-- ==== Sys2Proof/Laws/Step.lean ====
section
/-! SUPPORT. What `exec` and `step` can do, said once: every meaning is `launch` of its first progress, and a step is
one of the moves of `Moved`. -/

namespace Sys2Proof.Machine

/-- The first progress of each command after acceptance. -/
def startOf (i : Instr) : Word → Word → Word → Progress :=
  match i with
  | .crcInit => startCrcInit
  | .crcFeed => startCrcFeed
  | .crcBuf => startCrcBuf
  | .tblRead => startTblRead
  | .put16 => startPut16
  | .put32 => startPut32
  | .hdr => startHdr
  | .chunk => startChunk

theorem exec_eq_launch (i : Instr) (s : State) : exec i s = launch i (startOf i) s := by
  cases i <;> rfl

/-- A command presented while BUSY is 1 is turned away with ERR_BUSY (60_exceptions.md R202). -/
theorem exec_of_busy (i : Instr) {s : State} (h : s.busy = true) :
    exec i s = .next (raiseError .errBusy s) := by
  simp [exec_eq_launch, launch, h]

/-- A command presented while BUSY is 0 is accepted, and the engine goes on (30_encoding.md R95). -/
theorem exec_of_idle (i : Instr) {s : State} (h : s.busy = false) :
    exec i s = .next (advance (accept i (startOf i) s)) := by
  simp [exec_eq_launch, launch, h]

theorem portRefusal_none {bytes off : Nat} (h : portRefusal bytes off = none) :
    bytes = 4 ∧ off % 4 = 0 ∧ off ≤ 0x1C := by
  unfold portRefusal at h
  split at h
  · cases h
  · split at h
    · cases h
    · omega

theorem portRefusal_of_access {bytes off : Nat} (h : WellFormed.access bytes off = true) :
    portRefusal bytes off = none := by
  simp only [WellFormed.access, Bool.and_eq_true, beq_iff_eq, decide_eq_true_eq] at h
  simp [portRefusal, h.1.1, h.1.2, show ¬ 0x1C < off by omega]

/-- A driver's move: what one operation does to the state `s` in which it has just been taken off the program. -/
inductive Made (s : State) : DriverOp → State → Prop where
  | command (w : Word) (i : Instr) (t : State) : decode w = .command i → exec i s = .next t →
      Made s (.write 4 0x00 w) t
  | illegalWord (w : Word) (e : DecodeError) : decode w = .illegal e →
      Made s (.write 4 0x00 w) (raiseError (if s.busy then .errBusy else .errOpcode) s)
  | writeStatus (w : Word) : Made s (.write 4 0x04 w) (writeStatus w s)
  | writeArg0 (w : Word) : Made s (.write 4 0x08 w) (setArg0 w s)
  | writeArg1 (w : Word) : Made s (.write 4 0x0C w) (setArg1 w s)
  | writeIgnored (off : Nat) (w : Word) : 0x10 ≤ off → off ≤ 0x1C → off % 4 = 0 → Made s (.write 4 off w) s
  | read (off : Nat) : off % 4 = 0 → off ≤ 0x1C → Made s (.read 4 off) (recordRead (readReg off s) s)
  | store (a : Word) (b : Byte) : s.inflight.any (fun f => f.owns a) = false →
      Made s (.store a b) (setPmem (s.pmem.write a b) s)

/-- The moves of one turn from `s`, the state with the turn already taken off the schedule. -/
inductive Moved (s : State) : Turn → State → Prop where
  | idle : s.driver = [] → Moved s .driver (advance s)
  | made (op : DriverOp) (rest : List DriverOp) (t : State) : s.driver = op :: rest →
      Made (setDriver rest s) op t → Moved s .driver t
  | poll (rest : List DriverOp) : s.driver = .wait :: rest → Moved s .driver (pollStatus rest s)
  | env (r : Readiness) : Moved s (.env r) (advance (setReady r s))
  | store (a : Word) (b : Byte) : s.inflight.any (fun f => f.owns a) = false →
      Moved s (.store a b) (setPmem (s.pmem.write a b) s)
  | reset : Moved s .reset (resetBlock s)

theorem storeByte_next {a : Word} {b : Byte} {s t : State} (h : storeByte a b s = .next t) :
    s.inflight.any (fun f => f.owns a) = false ∧ t = setPmem (s.pmem.write a b) s := by
  unfold storeByte at h
  split at h
  · cases h
  · cases h
    exact ⟨(Bool.not_eq_true _).mp ‹¬ _›, rfl⟩

theorem portWrite_made {bytes off : Nat} {w : Word} {s t : State} (h : portWrite bytes off w s = .next t) :
    Made s (.write bytes off w) t := by
  unfold portWrite at h
  split at h
  · cases h
  · rename_i hp
    obtain ⟨rfl, h4, hle⟩ := portRefusal_none hp
    unfold writeReg at h
    split at h
    · subst off
      unfold writeCmd at h
      split at h
      · exact .command w _ t ‹_› h
      · cases h
        exact .illegalWord w _ ‹_›
    · split at h
      · subst off
        cases h
        exact .writeStatus w
      · split at h
        · subst off
          cases h
          exact .writeArg0 w
        · split at h
          · subst off
            cases h
            exact .writeArg1 w
          · cases h
            exact .writeIgnored off w (by omega) hle h4

theorem portRead_made {bytes off : Nat} {s t : State} (h : portRead bytes off s = .next t) :
    Made s (.read bytes off) t := by
  unfold portRead at h
  split at h
  · cases h
  · rename_i hp
    obtain ⟨rfl, h4, hle⟩ := portRefusal_none hp
    cases h
    exact .read off h4 hle

theorem takeTurn_moved {x : Turn} {s t : State} (h : takeTurn x s = .next t) : Moved s x t := by
  cases x with
  | env r =>
    cases h
    exact .env r
  | store a b =>
    obtain ⟨ho, rfl⟩ := storeByte_next h
    exact .store a b ho
  | reset =>
    cases h
    exact .reset
  | driver =>
    simp only [takeTurn, driverTurn] at h
    split at h
    · cases h
      exact .idle ‹_›
    · exact .made _ _ t ‹_› (portWrite_made h)
    · exact .made _ _ t ‹_› (portRead_made h)
    · cases h
      exact .poll _ ‹_›
    · obtain ⟨ho, rfl⟩ := storeByte_next h
      exact .made _ _ _ ‹_› (.store _ _ ho)

/-- A step that answers a next state is one of the moves, made by the schedule's next turn or, with none left, by
the driver. -/
theorem step_moved {s t : State} (h : step s = .next t) :
    Moved (setSched s.sched.tail s) (s.sched.headD .driver) t := by
  unfold step at h
  split at h
  · rename_i hs
    rw [show setSched s.sched.tail s = s by cases s; simp_all [setSched], hs]
    exact takeTurn_moved h
  · rename_i x rest hs
    rw [hs]
    exact takeTurn_moved h

/-- Where the driver issues `op`, the step is the driver's turn with `op` first in its program. -/
theorem step_of_issues {s u : State} {op : DriverOp} (h : Issues s op u) :
    step s = driverTurn (setDriver (op :: u.driver) u) := by
  obtain ⟨hd, hs, he⟩ := h
  rcases hs with hs | ⟨hs, hu⟩
  · rw [he]
    simp [step, hs, takeTurn, hd, setDriver, setSched]
  · have hset : s = setDriver (op :: u.driver) u := by
      rw [he, hd, hs, ← hu]
      rfl
    rw [hset]
    simp [step, hu, takeTurn]

/-- Where the driver issues a write of the register port, the step is that write. -/
theorem step_of_issues_write {s u : State} {off : Nat} {w : Word} (h : Issues s (.write 4 off w) u)
    (ha : WellFormed.access 4 off = true) : step s = writeReg off w u := by
  rw [step_of_issues h]
  simp [driverTurn, portWrite, portRefusal_of_access ha, setDriver]

/-- Where the driver issues a read of the register port, the step is that read. -/
theorem step_of_issues_read {s u : State} {off : Nat} (h : Issues s (.read 4 off) u)
    (ha : WellFormed.access 4 off = true) : step s = .next (recordRead (readReg off u) u) := by
  rw [step_of_issues h]
  simp [driverTurn, portRead, portRefusal_of_access ha, setDriver]

end Sys2Proof.Machine
end

