-- ==== Sys2Proof/Tests/Slice0.lean ====
section
/-! SUPPORT. The model's own tests. Expected values are those of 95_test_vectors.md, each named by its id there, or
words written out from 30_encoding.md R80 and R81; the witnesses show that each statement's hypotheses are met. -/

namespace Sys2Proof.Tests

open Sys2Proof.Machine

/-! ### Well-formedness -/

/-- T-ERR-3, T-ERR-4: MBZ is not zero. -/
theorem test_wf_refuses_nonzero_mbz :
    WellFormed.word 0x00000101#32 = false ∧ WellFormed.word 0x80000021#32 = false := by decide

/-- T-ERR-1, T-ERR-2: undefined opcodes at the boundaries of R82's ranges. -/
theorem test_wf_refuses_undefined_opcodes :
    [0x00#32, 0x05#32, 0x0F#32, 0x12#32, 0x1F#32, 0x22#32, 0xFF#32].all (fun w => !WellFormed.word w) = true := by
  decide

/-- T-REG-5: narrow and misaligned accesses; and a word past the window. -/
theorem test_wf_refuses_other_accesses :
    WellFormed.access 1 0x08 = false ∧ WellFormed.access 2 0x08 = false ∧ WellFormed.access 4 0x02 = false ∧
      WellFormed.access 4 0x20 = false := by decide

theorem test_wf_takes_the_window :
    (List.range 8).all (fun k => WellFormed.access 4 (4 * k)) = true := by decide

theorem test_wf_takes_every_instr :
    [Instr.crcInit, .crcFeed, .crcBuf, .tblRead, .put16, .put32, .hdr, .chunk].all WellFormed.instr = true := by decide

/-! ### Decoding, one word written out from R80 and R81 for each command -/

theorem test_decode_crcInit : decode 0b000000000000000000000000_00000001#32 = .command .crcInit := by decide
theorem test_decode_crcFeed : decode 0b000000000000000000000000_00000010#32 = .command .crcFeed := by decide
theorem test_decode_crcBuf : decode 0b000000000000000000000000_00000011#32 = .command .crcBuf := by decide
theorem test_decode_tblRead : decode 0b000000000000000000000000_00000100#32 = .command .tblRead := by decide
theorem test_decode_put16 : decode 0b000000000000000000000000_00010000#32 = .command .put16 := by decide
theorem test_decode_put32 : decode 0b000000000000000000000000_00010001#32 = .command .put32 := by decide
theorem test_decode_hdr : decode 0b000000000000000000000000_00100000#32 = .command .hdr := by decide
theorem test_decode_chunk : decode 0b000000000000000000000000_00100001#32 = .command .chunk := by decide

theorem test_decode_rejects_by_name :
    decode 0x00000005#32 = .illegal (.undefinedOpcode 0x05#8) ∧
      decode 0x00000101#32 = .illegal (.mbzNotZero 0x000001#24) := by decide

theorem test_table_word_beyond_32_bits : decodeTableWord 40 (2 ^ 32 + 1) = none := by decide

/-! ### Small states -/

/-- The state an outcome answers; the machine after reset where it answers none. -/
def nextOf (o : Host.Outcome State Fault Refusal) : State :=
  match o with
  | .next t => t
  | .fault _ => State.reset
  | .refused _ => State.reset

/-- `n` bytes `f 0, f 1, …` from address `a` on. -/
def cells (a : Nat) (bs : List Byte) : Memory := bs.mapIdx fun k b => (a + k, b)

/-- "123456789". -/
def digits : List Byte := [0x31#8, 0x32#8, 0x33#8, 0x34#8, 0x35#8, 0x36#8, 0x37#8, 0x38#8, 0x39#8]

/-- The machine after reset with "123456789" at 0x1000, ARG0 = `a0` and ARG1 = `a1`. -/
def ready (a0 a1 : Word) : State :=
  { State.reset with pmem := cells 0x1000 digits, arg0 := a0, arg1 := a1 }

/-- The payload memory of T-CRC-15, across the top of the address space. -/
def topMem : Memory := [(0, 0xCC#8), (1, 0xDD#8), (0xFFFFFFFE, 0xAA#8), (0xFFFFFFFF, 0xBB#8)]

/-- The state after a command that is presented to `s`. -/
def ran (i : Instr) (s : State) : State := nextOf (exec i s)

/-- `s` with an environment that is as ready as `r` says. -/
def under (r : Readiness) (s : State) : State := { s with ready := r }

/-- `u` in which the driver issues `op`, with nothing scheduled before it. -/
def issuing (op : DriverOp) (u : State) : State := { u with driver := op :: u.driver, sched := [] }

theorem issues_issuing (op : DriverOp) (u : State) (h : u.sched = []) : Issues (issuing op u) op u :=
  ⟨rfl, .inr ⟨rfl, h⟩, rfl⟩

/-! ### The commands -/

/-- T-CRC-17. -/
theorem test_crcInit :
    (ran .crcInit { State.reset with acc := 0x12345678#32, result := 0xDEADBEEF#32 }).acc = 0xFFFFFFFF#32 ∧
      (ran .crcInit { State.reset with acc := 0x12345678#32, result := 0xDEADBEEF#32 }).result = 0#32 := by decide

/-- T-CRC-12. -/
theorem test_crcFeed :
    (ran .crcFeed (ready 0x31#32 0#32)).acc = 0x7C231048#32 ∧
      (ran .crcFeed (ready 0x31#32 0#32)).result = 0x83DCEFB7#32 := by decide +kernel

/-- T-CRC-13: ignored bits set. -/
theorem test_crcFeed_ignores_high_bits : (ran .crcFeed (ready 0xABCDEF31#32 0#32)).acc = 0x7C231048#32 := by
  decide +kernel

/-- T-CRC-16. -/
theorem test_crcBuf :
    (ran .crcBuf (ready 0x1000#32 9#32)).acc = 0x340BC6D9#32 ∧
      (ran .crcBuf (ready 0x1000#32 9#32)).result = 0xCBF43926#32 := by decide +kernel

/-- T-CRC-15: across the top of the address space. -/
theorem test_crcBuf_wraps :
    (ran .crcBuf { State.reset with pmem := topMem, arg0 := 0xFFFFFFFE#32, arg1 := 4#32 }).result = 0x55B401A7#32 := by
  decide +kernel

/-- T-TBL-5 and T-TBL-9. -/
theorem test_tblRead :
    (ran .tblRead (ready 0x80#32 0#32)).result = 0xEDB88320#32 ∧
      (ran .tblRead (ready 0xFFFFFF80#32 0#32)).result = 0xEDB88320#32 := by decide +kernel

/-- T-TBL-10: ACC is left alone. -/
theorem test_tblRead_keeps_acc :
    (ran .tblRead { ready 1#32 0#32 with acc := 0x7C231048#32 }).result = 0x77073096#32 ∧
      (ran .tblRead { ready 1#32 0#32 with acc := 0x7C231048#32 }).acc = 0x7C231048#32 := by decide +kernel

/-- T-ENC-4. -/
theorem test_put16 : (ran .put16 (ready 0xDEAD1234#32 0#32)).out = [.byte 0x34#8, .byte 0x12#8] := by decide

/-- T-ENC-8. -/
theorem test_put32 :
    (ran .put32 (ready 0xCBF43926#32 0#32)).out =
      [.byte 0x26#8, .byte 0x39#8, .byte 0xF4#8, .byte 0xCB#8] := by decide

/-- T-HDR-1, for every MAGIC. -/
theorem test_hdr :
    (ran .hdr (ready 0x000003E8#32 0x00020200#32)).out =
      byteEvents (le32 Config.magic ++
        [0x01#8, 0xE8#8, 0x03#8, 0x00#8, 0x00#8, 0x00#8, 0x02#8, 0x02#8, 0x00#8]) := by rfl

/-- T-HDR-4: inconsistent operands go out as given, and no flush. -/
theorem test_hdr_unchecked :
    (ran .hdr (ready 0x000003E8#32 0x00070000#32)).out =
      byteEvents (le32 Config.magic ++
        [0x01#8, 0xE8#8, 0x03#8, 0x00#8, 0x00#8, 0x00#8, 0x00#8, 0x07#8, 0x00#8]) := by rfl

/-- T-CHK-1 after the marker. -/
theorem test_chunk :
    (ran .chunk (ready 0x1000#32 0x00090000#32)).out.drop 4 =
      byteEvents
        [0x02#8, 0x00#8, 0x00#8, 0x09#8, 0x00#8, 0x26#8, 0x39#8, 0xF4#8, 0xCB#8, 0x31#8, 0x32#8, 0x33#8, 0x34#8,
          0x35#8, 0x36#8, 0x37#8, 0x38#8, 0x39#8] ++ [.flush] := by decide +kernel

/-- T-CHK-3 and T-CHK-6: a chunk of length 0, and ACC left alone. -/
theorem test_chunk_empty :
    (ran .chunk { ready 0x1000#32 0#32 with acc := 0x7C231048#32 }).out =
        byteEvents (le32 Config.magic ++ [0x02#8, 0#8, 0#8, 0#8, 0#8, 0#8, 0#8, 0#8, 0#8]) ++ [.flush] ∧
      (ran .chunk { ready 0x1000#32 0#32 with acc := 0x7C231048#32 }).result = 0#32 ∧
      (ran .chunk { ready 0x1000#32 0#32 with acc := 0x7C231048#32 }).acc = 0x7C231048#32 := ⟨rfl, rfl, rfl⟩

/-! ### Held commands, errors, the register port and reset -/

/-- T-CHK-1 with a sink that takes its first `k` bytes. -/
def heldChunk (k : Nat) : State :=
  ran .chunk (under { Readiness.free with sink := .upTo k } (ready 0x1000#32 0x00090000#32))

/-- T-CHK-1 with a sink that takes every byte and acknowledges no flush. -/
def unflushedChunk : State :=
  ran .chunk (under { Readiness.free with flush := .upTo 0 } (ready 0x1000#32 0x00090000#32))

/-- A CRC_BUF of "123456789" with a memory that answers its first `k` reads. -/
def heldBuf (k : Nat) : State :=
  ran .crcBuf (under { Readiness.free with memory := .upTo k } (ready 0x1000#32 9#32))

/-- T-ERR-5, T-ERR-6: a legal and an illegal word while a CHUNK is in flight. -/
theorem test_write_while_busy :
    statusWord (nextOf (step (issuing (.write 4 0x00 0x00000001#32) (heldChunk 0)))) = 0x00000005#32 ∧
      statusWord (nextOf (step (issuing (.write 4 0x00 0x00000005#32) (heldChunk 0)))) = 0x00000005#32 := by
  decide +kernel

/-- T-ERR-3. -/
theorem test_illegal_word :
    statusWord (nextOf (step (issuing (.write 4 0x00 0x00000101#32) State.reset))) = 0x00000002#32 := by decide

/-- T-ERR-7. -/
theorem test_clear_error :
    statusWord (nextOf (step (issuing (.write 4 0x04 0x00000002#32)
      { State.reset with errOpcode := true, errBusy := true }))) = 0x00000004#32 := by decide

/-- T-ERR-8. -/
theorem test_clear_only_where_1 :
    statusWord (nextOf (step (issuing (.write 4 0x04 0xFFFFFFF9#32)
      { State.reset with errBusy := true }))) = 0x00000004#32 := by decide

/-- T-REG-3. -/
theorem test_read_only_registers :
    (nextOf (step (issuing (.write 4 0x10 0#32) { State.reset with result := 0xCBF43926#32 }))).result =
        0xCBF43926#32 ∧
      (nextOf (step (issuing (.write 4 0x14 0#32) { State.reset with acc := 0x340BC6D9#32 }))).acc =
        0x340BC6D9#32 := by decide

/-- T-RST-2: six bytes stay, and the registers take their reset values. -/
theorem test_reset_during_chunk :
    (nextOf (step (withTurn .reset (heldChunk 6)))).out =
        byteEvents (le32 Config.magic ++ [0x02#8, 0x00#8]) ∧
      (nextOf (step (withTurn .reset (heldChunk 6)))).result = 0#32 ∧
      (nextOf (step (withTurn .reset (heldChunk 6)))).busy = false := ⟨rfl, rfl, rfl⟩

/-- Lines 9 to 14 of P5: the sink accepts everything again and the held CHUNK completes. -/
theorem test_held_chunk_completes :
    (nextOf (step (withTurn (.env Readiness.free) (heldChunk 0)))).result = 0xCBF43926#32 ∧
      (nextOf (step (withTurn (.env Readiness.free) (heldChunk 0)))).busy = false ∧
      (heldChunk 0).busy = true ∧ (heldChunk 0).out = [] := by decide +kernel

/-- A command word presented right after reset runs as the next step. -/
theorem test_fetch_word_runs :
    (nextOf (step (State.reset.withFetchWord 32 0x00000004))).busy = false ∧
      (nextOf (step (State.reset.withFetchWord 32 0x00000020))).out.length = 13 := ⟨rfl, rfl⟩

/-- T-FR-7: the reference driver refuses 65536 chunks. -/
theorem test_transfer_refuses : transfer 0x2000#32 65536 1 = none := by rfl

/-- P4: the driver's accesses for an empty frame. -/
theorem test_transfer_empty :
    transfer 0x2000#32 0 512 =
      some [.write 4 0x08 0#32, .write 4 0x0C 0x00000200#32, .write 4 0x00 0x00000020#32, .wait] := by
  decide +kernel

/-! ### Witnesses: the hypotheses of each statement are met -/

/-- A CRC_BUF that has read two of its nine bytes. -/
theorem test_witness_Inv_reading (ts : List Turn) (ops : List DriverOp) :
    State.Inv { heldBuf 2 with sched := ts, driver := ops } where
  memWf := rfl
  busyIff := rfl
  sentLe := Nat.le_refl 0
  consistent := by
    intro f hf
    obtain rfl := Option.some.inj hf
    exact ⟨.crcBuf, rfl, .inl ⟨rfl, rfl⟩, by decide +kernel, rfl⟩

/-- A PUT32 that has put out one of its four bytes. -/
def heldPut : State := ran .put32 (under { Readiness.free with sink := .upTo 1 } (ready 0x12345678#32 0#32))

theorem test_witness_Inv_emitting (ts : List Turn) (ops : List DriverOp := []) (r : Readiness := heldPut.ready) :
    State.Inv { heldPut with sched := ts, driver := ops, ready := r } where
  memWf := rfl
  busyIff := rfl
  sentLe := Nat.zero_le _
  consistent := by
    intro f hf
    obtain rfl := Option.some.inj hf
    refine ⟨.put32, rfl, rfl, ⟨[.byte 0x78#8], rfl, List.suffix_refl _⟩, ?_⟩
    intro h
    cases h

theorem test_witness_EveryStepKeepsInvariant :
    ∃ s t : State, s.Inv ∧ step s = .next t ∧ s.inflight.isSome = true ∧ t.inflight = none :=
  ⟨_, _, test_witness_Inv_reading [.env Readiness.free] [], rfl, rfl, rfl⟩

/-- With BUSY 0 and with BUSY 1. -/
theorem test_witness_StepRunsDecodedCommand :
    ∀ busy : Bool, ∃ (s u : State) (w : Word) (i : Instr),
      Issues s (.write 4 0x00 w) u ∧ decode w = .command i ∧ u.busy = busy
  | false => ⟨_, State.reset, 0x00000021#32, .chunk, issues_issuing _ _ rfl, rfl, rfl⟩
  | true => ⟨_, heldPut, 0x00000021#32, .chunk, issues_issuing _ _ rfl, rfl, rfl⟩

theorem test_witness_FetchWordRunsAsNextStep : decodeTableWord 32 0x21 = some .chunk := by decide

theorem test_witness_AcceptanceFollowsTheLifecycle :
    (∃ (s u : State) (w : Word), Issues s (.write 4 0x00 w) u ∧ u.busy = true) ∧
      (∃ (s u : State) (w : Word), Issues s (.write 4 0x00 w) u ∧ u.busy = false ∧ w.extractLsb' 8 24 ≠ 0#24) ∧
      (∃ (s u : State) (w : Word), Issues s (.write 4 0x00 w) u ∧ u.busy = false ∧
        w.extractLsb' 0 8 ∉ [0x01#8, 0x02#8, 0x03#8, 0x04#8, 0x10#8, 0x11#8, 0x20#8, 0x21#8]) ∧
      ∃ (s u : State) (w : Word), Issues s (.write 4 0x00 w) u ∧ u.busy = false ∧ w.extractLsb' 8 24 = 0#24 ∧
        w.extractLsb' 0 8 ∈ [0x01#8, 0x02#8, 0x03#8, 0x04#8, 0x10#8, 0x11#8, 0x20#8, 0x21#8] ∧
        u.ready = Readiness.stalled :=
  ⟨⟨_, heldBuf 2, 0x00000001#32, issues_issuing _ _ rfl, rfl⟩,
    ⟨_, State.reset, 0x00000101#32, issues_issuing _ _ rfl, rfl, by decide⟩,
    ⟨_, State.reset, 0x00000022#32, issues_issuing _ _ rfl, rfl, by decide⟩,
    ⟨_, under Readiness.stalled State.reset, 0x00000021#32, issues_issuing _ _ rfl, rfl, by decide, by decide, rfl⟩⟩

theorem test_witness_IllegalWordSetsErrOpcodeOnly :
    ∃ (s u : State) (w : Word), Issues s (.write 4 0x00 w) u ∧ u.busy = false ∧ WellFormed.word w = false :=
  ⟨_, State.reset, 0x00000005#32, issues_issuing _ _ rfl, rfl, by decide⟩

theorem test_witness_CmdWriteWhileBusySetsErrBusyOnly :
    ∃ (s u : State) (w : Word), Issues s (.write 4 0x00 w) u ∧ u.busy = true :=
  ⟨_, heldPut, 0x00000005#32, issues_issuing _ _ rfl, rfl⟩

theorem test_witness_ErrorsComeOnlyFromCmdWrites :
    (∃ s t : State, step s = .next t ∧ s.errOpcode = false ∧ t.errOpcode = true) ∧
      ∃ s t : State, step s = .next t ∧ s.errBusy = false ∧ t.errBusy = true :=
  ⟨⟨issuing (.write 4 0x00 0x00000005#32) State.reset, _, rfl, rfl, rfl⟩,
    ⟨issuing (.write 4 0x00 0x00000005#32) (heldBuf 2), _, rfl, rfl, rfl⟩⟩

theorem test_witness_ErrorBitsAreSticky :
    (∃ s t : State, step s = .next t ∧ s.errOpcode = true ∧ t.errOpcode = false) ∧
      ∃ s t : State, step s = .next t ∧ s.errBusy = true ∧ t.errBusy = false :=
  ⟨⟨issuing (.write 4 0x04 0x00000002#32) { State.reset with errOpcode := true }, _, rfl, rfl, rfl⟩,
    ⟨issuing (.write 4 0x04 0x00000004#32) { State.reset with errBusy := true }, _, rfl, rfl, rfl⟩⟩

/-- Every clause of `PortReadReturnsRegister`, and no offset falls under two. -/
theorem test_witness_PortReadReturnsRegister :
    ∀ off ∈ [0x00, 0x04, 0x08, 0x0C, 0x10, 0x14, 0x18, 0x1C],
      ∃ s u : State, Issues s (.read 4 off) u ∧ u.busy = true :=
  fun _ _ => ⟨_, heldBuf 2, issues_issuing _ _ rfl, rfl⟩

theorem test_witness_PortWriteHasItsEffectOnly :
    ∀ off ∈ [0x00, 0x04, 0x08, 0x0C, 0x10, 0x14, 0x18, 0x1C],
      ∃ (s u : State) (w : Word), Issues s (.write 4 off w) u ∧ w.getLsbD 1 = true ∧ w.getLsbD 2 = false :=
  fun _ _ => ⟨_, State.reset, 0x00000002#32, issues_issuing _ _ rfl, by decide, by decide⟩

theorem test_witness_OnlyAlignedWordAccessesHaveMeaning :
    (∃ s u : State, Issues s (.write 2 0x08 0#32) u ∧ (2 ≠ 4 ∨ 0x08 % 4 ≠ 0)) ∧
      (∃ s u : State, Issues s (.read 4 0x02) u ∧ (4 ≠ 4 ∨ 0x02 % 4 ≠ 0)) ∧
      (∃ s u : State, Issues s (.write 4 0x1C 0#32) u ∧ WellFormed.access 4 0x1C = true) ∧
      ∃ s u : State, Issues s (.read 4 0x00) u ∧ WellFormed.access 4 0x00 = true :=
  ⟨⟨_, State.reset, issues_issuing _ _ rfl, by decide⟩, ⟨_, State.reset, issues_issuing _ _ rfl, by decide⟩,
    ⟨_, State.reset, issues_issuing _ _ rfl, by decide⟩, ⟨_, State.reset, issues_issuing _ _ rfl, by decide⟩⟩

theorem test_witness_AccessOutsideWindowIsRefused :
    (0x20 % 4 = 0 ∧ 0x1C < 0x20) ∧ (∃ s u : State, Issues s (.write 4 0x20 0#32) u) ∧
      ∃ s u : State, Issues s (.read 4 0x20) u :=
  ⟨by decide, ⟨_, State.reset, issues_issuing _ _ rfl⟩, ⟨_, State.reset, issues_issuing _ _ rfl⟩⟩

theorem test_witness_OperandRegistersAreFreeWhileBusy :
    (∃ s u : State, Issues s (.write 4 0x08 0x5555AAAA#32) u ∧ u.busy = true) ∧
      ∃ s u : State, Issues s (.write 4 0x0C 0x5555AAAA#32) u ∧ u.busy = true :=
  ⟨⟨_, heldBuf 2, issues_issuing _ _ rfl, rfl⟩, ⟨_, heldBuf 2, issues_issuing _ _ rfl, rfl⟩⟩

theorem test_witness_WaitPollsUntilIdle :
    (∃ s u : State, Issues s .wait u ∧ u.busy = false) ∧ ∃ s u : State, Issues s .wait u ∧ u.busy = true :=
  ⟨⟨_, State.reset, issues_issuing _ _ rfl, rfl⟩, ⟨_, heldBuf 2, issues_issuing _ _ rfl, rfl⟩⟩

theorem test_witness_ChecksumComposes :
    ∃ (s : State) (xs : List Byte), s.busy = false ∧ s.ready = Readiness.free ∧
      s.acc = crcFold 0xFFFFFFFF#32 xs ∧ xs ≠ [] :=
  ⟨ran .crcFeed (ready 0x31#32 9#32), [0x31#8], rfl, rfl, rfl, by decide⟩

theorem test_witness_OneChangedByteChangesChecksum : ∃ b b' : Byte, b ≠ b' := ⟨0x31#8, 0x30#8, by decide⟩

/-- The environments the completion statements ask for, each with exactly as much as the command needs. -/
theorem test_witness_CommandsComplete :
    ∀ i ∈ [Instr.crcInit, .crcFeed, .crcBuf, .tblRead, .put16, .put32, .hdr, .chunk],
      ∃ s : State, s.busy = false ∧ s.ready.covers (needs i s.arg1) = true ∧ (ran i s).busy = false := by
  intro i hi
  refine ⟨under ⟨.upTo 2, .upTo 9, .upTo 22, .upTo 1⟩
    (ready 0x1000#32 (if i = .chunk then 0x00090000#32 else 9#32)), rfl, ?_, ?_⟩ <;>
    cases i <;> rfl

theorem test_witness_CommandWaitsForItsEnvironment :
    ∀ i ∈ [Instr.crcInit, .crcFeed, .crcBuf, .tblRead, .put16, .put32, .hdr, .chunk],
      ∃ s : State, s.busy = false ∧ s.ready.covers (needs i s.arg1) = false := by
  intro i hi
  exact ⟨under Readiness.stalled (ready 0x1000#32 9#32), rfl, by cases i <;> rfl⟩

theorem test_witness_StalledSinkKeepsBlockBusy :
    (∃ (s t : State) (f : InFlight) (b : Byte) (todo : List OutEvent) (wr : Writes), s.busy = true ∧
      s.inflight = some f ∧ Turn.reset ∉ s.sched ∧ f.current = .emitting (.byte b :: todo) wr ∧
      s.ready.sink = .upTo 0 ∧ (∀ r, Turn.env r ∈ s.sched → r.sink = .upTo 0) ∧
      Sys2Proof.core.run 1 s = .next t) ∧
      ∃ (s t : State) (f : InFlight) (todo : List OutEvent) (wr : Writes), s.busy = true ∧
        s.inflight = some f ∧ Turn.reset ∉ s.sched ∧ f.current = .awaitingAck todo wr ∧
        s.ready.flush = .upTo 0 ∧ (∀ r, Turn.env r ∈ s.sched → r.flush = .upTo 0) ∧
        Sys2Proof.core.run 1 s = .next t := by
  refine ⟨⟨heldPut, _, _, _, _, _, rfl, rfl, ?_, rfl, rfl, ?_, rfl⟩,
    ⟨unflushedChunk, _, _, _, _, rfl, rfl, ?_, rfl, rfl, ?_, rfl⟩⟩
  · exact List.not_mem_nil
  · exact fun r h => absurd h List.not_mem_nil
  · exact List.not_mem_nil
  · exact fun r h => absurd h List.not_mem_nil

theorem test_witness_CommandInFlightCompletesUnderFreeEnvironment :
    ∃ s : State, s.Inv ∧ s.busy = true := ⟨_, test_witness_Inv_emitting [], rfl⟩

/-- An environment that holds the command back. -/
theorem test_witness_OutcomeIndependentOfPace :
    ∃ (s : State) (r : Readiness), s.busy = false ∧ (ran .put32 (under r s)).busy = true :=
  ⟨ready 0x12345678#32 0#32, { Readiness.free with sink := .upTo 1 }, rfl, rfl⟩

theorem test_witness_BusyZeroMeansCommandComplete :
    ∃ (s t : State) (f : InFlight), s.Inv ∧ s.inflight = some f ∧ step s = .next t ∧ t.busy = false ∧
      s.sched.headD .driver ≠ .reset :=
  ⟨_, _, _, test_witness_Inv_emitting [.env Readiness.free], rfl, rfl, rfl, by simp⟩

/-- The first and the last byte of the range, for both commands that read. -/
theorem test_witness_StoreIntoOwnedRangeIsPayloadRace :
    ∀ k ∈ [0, 8],
      (∃ (s u : State) (f : InFlight), u.inflight = some f ∧ f.lop = 0x03#8 ∧ k < f.la1.toNat ∧
        Issues s (.store (f.la0 + BitVec.ofNat 32 k) 0#8) u) ∧
      ∃ (s u : State) (f : InFlight), u.inflight = some f ∧ f.lop = 0x21#8 ∧
        k < (f.la1.extractLsb' 16 16).toNat ∧ Issues s (.store (f.la0 + BitVec.ofNat 32 k) 0#8) u := by
  intro k hk
  have h9 : k < 9 := by
    simp only [List.mem_cons, List.not_mem_nil, or_false] at hk
    omega
  exact ⟨⟨_, heldBuf 2, _, rfl, rfl, h9, issues_issuing _ _ rfl⟩,
    ⟨_, heldChunk 6, _, rfl, rfl, h9, issues_issuing _ _ rfl⟩⟩

/-- A store one byte past the range of a CRC_BUF in flight. -/
theorem test_witness_OtherStoresReachPayloadMemory :
    ∃ (s u : State) (f : InFlight), u.pmem.wf = true ∧ u.inflight = some f ∧ f.lop = 0x03#8 ∧
      (∀ k, k < f.la1.toNat → 0x1009#32 ≠ f.la0 + BitVec.ofNat 32 k) ∧ Issues s (.store 0x1009#32 0x41#8) u := by
  refine ⟨_, heldBuf 2, _, rfl, rfl, rfl, ?_, issues_issuing _ _ rfl⟩
  show ∀ k, k < 9 → 0x1009#32 ≠ 0x1000#32 + BitVec.ofNat 32 k
  decide

theorem test_witness_OnlyStoresChangePayloadMemory :
    ∃ s t : State, step s = .next t ∧ t.pmem.read 0x2000#32 ≠ s.pmem.read 0x2000#32 :=
  ⟨issuing (.store 0x2000#32 0x41#8) State.reset, _, rfl, by decide⟩

theorem test_witness_CommandFrame :
    (∃ (i : Instr) (s t : State), exec i s = .next t ∧ s.busy = false) ∧
      ∀ i : Instr, ∃ s t : State, exec i s = .next t :=
  ⟨⟨.crcInit, State.reset, _, rfl, rfl⟩, fun i => ⟨State.reset, _, exec_of_idle i rfl⟩⟩

theorem test_witness_IgnoredOperandBitsChangeNothing :
    (0xABCDEF31#32).extractLsb' 0 8 = (0x00000031#32).extractLsb' 0 8 ∧
      (0xDEAD1234#32).extractLsb' 0 16 = (0x00001234#32).extractLsb' 0 16 := by decide

theorem test_witness_OutputOnlyGrows : ∃ s t : State, step s = .next t ∧ s.out ≠ t.out :=
  ⟨{ heldPut with sched := [.env Readiness.free] }, _, rfl, by decide⟩

theorem test_witness_ResultsAppearOnlyAtCompletion : ∃ s t : State, step s = .next t ∧ t.busy = true :=
  ⟨{ heldPut with sched := [.env { Readiness.free with sink := .upTo 1 }] }, _, rfl, rfl⟩

/-- The rise, and each turn in which BUSY falls: the environment's, a poll of `WAIT`, the empty driver's, the reset. -/
theorem test_witness_BusyFollowsAcceptanceAndCompletion :
    (∃ s t : State, s.Inv ∧ step s = .next t ∧ s.busy = false ∧ t.busy = true) ∧
      ∀ x ∈ [([Turn.env Readiness.free], []), ([], [DriverOp.wait]), ([], []), ([Turn.reset], [])],
        ∃ s t : State, s.sched = x.1 ∧ s.driver = x.2 ∧ s.Inv ∧ step s = .next t ∧ s.busy = true ∧
          t.busy = false := by
  refine ⟨⟨issuing (.write 4 0x00 0x00000001#32) (under Readiness.stalled State.reset), _,
      ⟨rfl, rfl, Nat.le_refl 0, fun _ hf => nomatch hf⟩, rfl, rfl, rfl⟩, ?_⟩
  simp only [List.forall_mem_cons, List.not_mem_nil, false_imp_iff, implies_true, and_true]
  exact ⟨⟨_, _, rfl, rfl, test_witness_Inv_emitting _ _ Readiness.free, rfl, rfl, rfl⟩,
    ⟨_, _, rfl, rfl, test_witness_Inv_emitting _ _ Readiness.free, rfl, rfl, rfl⟩,
    ⟨_, _, rfl, rfl, test_witness_Inv_emitting _ _ Readiness.free, rfl, rfl, rfl⟩,
    ⟨_, _, rfl, rfl, test_witness_Inv_emitting _ _ Readiness.free, rfl, rfl, rfl⟩⟩

theorem test_witness_LatchesHoldWhileInFlight :
    ∃ (s t : State) (f g : InFlight), s.Inv ∧ step s = .next t ∧ s.inflight = some f ∧ t.inflight = some g ∧
      f ≠ g :=
  ⟨_, _, _, _, test_witness_Inv_reading [.env { Readiness.free with memory := .upTo 1 }] [], rfl, rfl, rfl,
    by decide +kernel⟩

/-- 65535 chunks and 65536, the boundary of R159's test, and a frame of two unequal chunks. -/
theorem test_witness_ReferenceDriverRefusesOnlyLongFrames :
    chunkCount 65535 1 = 65535 ∧ chunkCount 65536 1 = 65536 ∧ chunkCount 1000 512 = 2 ∧
      chunkPayloadLen 1000 512 1 = 488 := by decide

theorem test_witness_ChunksPartitionTheFrame :
    (1 ≤ 512 ∧ 512 ≤ 65535 ∧ 1000 < 2 ^ 32 ∧ 0 + 1 < chunkCount 1000 512) ∧ 1024 % 512 = 0 ∧
      chunkCount 0 512 = 0 := by decide

theorem test_witness_TransferPutsOutTheFrame :
    ∃ (s : State) (ops : List DriverOp), transfer 0x1000#32 9 5 = some ops ∧ s.busy = false ∧ s.inflight = none ∧
      s.ready = Readiness.free ∧ s.sched = [] ∧ s.driver = ops ++ [.read 4 0x10] ∧ ops.length = 12 := by
  refine ⟨{ ready 0#32 0#32 with driver := _ }, _, rfl, rfl, rfl, rfl, rfl, rfl, by decide⟩

theorem test_witness_TransferLength : 1 ≤ 512 ∧ 512 ≤ 65535 ∧ 1000 < 2 ^ 32 := by decide

end Sys2Proof.Tests
end

section
/-! PROOFS of the scope family (00_scope.md): the register window on the driver's bus. -/

namespace Sys2Proof.Machine

/-- `REG_BASE` is a multiple of the window's 32 bytes, whichever window the integrator chose (00_scope.md R5). -/
theorem regBase_mod_window : Config.regBase % 32 = 0 := by
  simp [Config.regBase]

/-- A bus address is at `off` in the window exactly when it lies `off` bytes above `REG_BASE`, `off` below 32
(20_memory.md R67). -/
theorem busOffset_eq_some_iff {addr off : Nat} :
    busOffset addr = some off ↔ off < 32 ∧ addr = Config.regBase + off := by
  unfold busOffset
  split
  case isTrue hin => rw [Option.some.injEq]; omega
  case isFalse hout => simp only [reduceCtorEq, false_iff]; omega

/-- Every named register is a word of the window: the port takes a four-byte access at its offset (R20, R51). -/
@[simp] theorem Reg.access_offset (r : Reg) : WellFormed.access 4 r.offset = true := by
  cases r <;> decide

theorem Reg.offset_lt_window (r : Reg) : r.offset < 32 := by
  cases r <;> decide

/-- The driver's bus address of a register leads back to the offset the port decodes (R5, R67). -/
@[simp] theorem Reg.busOffset_address (r : Reg) : busOffset r.address = some r.offset :=
  busOffset_eq_some_iff.mpr ⟨r.offset_lt_window, rfl⟩

/-- Settles O51: alignment is in the definition of `REG_BASE`, and each register's offset is a word below 32. -/
theorem registerAddressesLieInWindow : Obligations.RegisterAddressesLieInWindow :=
  ⟨regBase_mod_window, fun r => ⟨r.busOffset_address, r.access_offset⟩⟩

end Sys2Proof.Machine
end

section
/-! PROOFS of the state family (10_state.md): the command in flight from its acceptance to its completion, and what
every step keeps. -/

namespace Sys2Proof.Machine

/-! ### Opcodes and command words -/

/-- An opcode the decoder takes is that of the command it answers (30_encoding.md R81). -/
theorem eq_opcode_of_decodeOpcode {opc : Byte} {i : Instr} (h : decodeOpcode opc = some i) : opc = opcode i := by
  unfold decodeOpcode at h
  split_ifs at h <;> cases h <;> assumption

/-- A word the decoder takes carries the opcode of the command it answers below a zero MBZ (R80, R81). -/
theorem fields_of_decode {w : Word} {i : Instr} (h : decode w = .command i) :
    mbzField w = 0#24 ∧ opcField w = opcode i := by
  unfold decode at h
  split at h
  case isTrue => cases h
  case isFalse hm =>
    split at h
    · rename_i j hj
      cases h
      exact ⟨not_not.mp hm, eq_opcode_of_decodeOpcode hj⟩
    · cases h

/-- The decoder answers a command for that command's own word only (R81, R85). -/
theorem eq_encode_of_decode {w : Word} {i : Instr} (h : decode w = .command i) : w = encode i := by
  obtain ⟨hm, ho⟩ := fields_of_decode h
  rw [encode, ← hm, ← ho]
  have happ := BitVec.extractLsb'_append_extractLsb'_eq_extractLsb' (x := w) (len₂ := 24) (Nat.zero_add 8).symm
  exact (happ.trans BitVec.extractLsb'_eq_self).symm

theorem wellFormed_encode (i : Instr) : WellFormed.word (encode i) = true := by
  cases i <;> decide

/-! ### A command's latches, and how far it has got -/

/-- A command in flight as its acceptance fixes it: the command, its two operand latches (10_state.md R33), and the
output there was before it. -/
structure Job where
  instr  : Instr
  la0    : Word
  la1    : Word
  before : List OutEvent

/-- The command in flight with this job's latches and the progress `p`. -/
def Job.latched (j : Job) (p : Progress) : InFlight := ⟨opcode j.instr, j.la0, j.la1, p⟩

/-- The events the rule of the command puts out, read from the payload memory of `s`. -/
def Job.events (j : Job) (s : State) : List OutEvent := commandEvents j.instr s.pmem j.la0 j.la1

/-- What the rule of the command writes at completion, from the payload memory and the ACC of `s`. -/
def Job.writes (j : Job) (s : State) : Writes := commandWrites j.instr s.pmem s.acc j.la0 j.la1

/-- The first `k` bytes of the command's payload range. -/
def Job.payload (j : Job) (s : State) (k : Nat) : List Byte := s.pmem.bytes (payloadBaseOf j.instr j.la0) k

@[simp] theorem Job.latched_count (j : Job) (p : Progress) :
    (j.latched p).count = payloadCountOf j.instr j.la1 := by
  simp [Job.latched, InFlight.count]

@[simp] theorem Job.latched_base (j : Job) (p : Progress) : (j.latched p).base = payloadBaseOf j.instr j.la0 := by
  simp [Job.latched, InFlight.base]

@[simp] theorem Job.latched_afterRead (j : Job) (p : Progress) (c : Word) (data : List Byte) :
    (j.latched p).afterRead c data = afterReadOf j.instr j.la1 c data := by
  simp [Job.latched, InFlight.afterRead]

/-- `c` is the checksum register of a command that reads, after the bytes `data` (41_crc.md R106, 43_framer.md R151). -/
def Job.Folds (j : Job) (s : State) (c : Word) (data : List Byte) : Prop :=
  j.instr = .crcBuf ∧ c = crcFold s.acc data ∨ j.instr = .chunk ∧ c = crcFold Config.crcInitial data

/-- The progress is what the rule of the command gives, and `OUT` holds what it says has been put out since the
acceptance: `Consistent`, with the output before the command made explicit. -/
inductive Job.Follows (j : Job) (s : State) : Progress → Prop where
  | reading (k : Nat) (c : Word) (buf : List Byte) : j.Folds s c buf → k ≤ payloadCountOf j.instr j.la1 →
      buf = j.payload s k → s.out = j.before → j.Follows s (.reading k c buf)
  | emitting (sent todo : List OutEvent) (wr : Writes) : wr = j.writes s → j.events s = sent ++ todo →
      s.out = j.before ++ sent → (j.instr = .chunk → todo = [] → s.sentLen = s.out.length) →
      j.Follows s (.emitting todo wr)
  | awaitingAck (sent todo : List OutEvent) (wr : Writes) : wr = j.writes s →
      j.events s = sent ++ [.flush] ++ todo → s.out = j.before ++ (sent ++ [.flush]) →
      j.Follows s (.awaitingAck todo wr)

/-- A command in flight is consistent exactly if it follows some job. -/
theorem consistent_iff {s : State} {f : InFlight} :
    Consistent s f ↔ ∃ (j : Job) (p : Progress), f = j.latched p ∧ j.Follows s p := by
  constructor
  · rintro ⟨i, hi, h⟩
    obtain ⟨lop, la0, la1, p⟩ := f
    obtain rfl : lop = opcode i := eq_opcode_of_decodeOpcode hi
    cases p with
    | reading k c buf =>
      obtain ⟨hc, hk, hb⟩ := h
      have hcount := Job.latched_count ⟨i, la0, la1, s.out⟩ (.reading k c buf)
      have hbase := Job.latched_base ⟨i, la0, la1, s.out⟩ (.reading k c buf)
      exact ⟨⟨i, la0, la1, s.out⟩, _, rfl,
        .reading k c buf hc (hk.trans_eq hcount) (hb.trans (congrArg (s.pmem.bytes · k) hbase)) rfl⟩
    | emitting todo wr =>
      obtain ⟨hw, ⟨sent, he, before, ho⟩, ha⟩ := h
      exact ⟨⟨i, la0, la1, before⟩, _, rfl, .emitting sent todo wr hw he ho.symm ha⟩
    | awaitingAck todo wr =>
      obtain ⟨hw, sent, he, before, ho⟩ := h
      exact ⟨⟨i, la0, la1, before⟩, _, rfl, .awaitingAck sent todo wr hw he ho.symm⟩
  · rintro ⟨j, p, rfl, h⟩
    refine ⟨j.instr, decodeOpcode_opcode j.instr, ?_⟩
    cases h with
    | reading k c buf hc hk hb ho => exact ⟨hc, by rwa [Job.latched_count], by rwa [Job.latched_base]⟩
    | emitting sent todo wr hw he ho ha => exact ⟨hw, ⟨sent, he, j.before, ho.symm⟩, ha⟩
    | awaitingAck sent todo wr hw he ho => exact ⟨hw, sent, he, j.before, ho.symm⟩

/-- After its last payload read a command is about to put out all of its events and to write what its rule says. -/
theorem Job.Folds.afterRead {j : Job} {s : State} {c : Word} {data : List Byte} (hc : j.Folds s c data)
    (hd : data = j.payload s (payloadCountOf j.instr j.la1)) :
    afterReadOf j.instr j.la1 c data = .emitting (j.events s) (j.writes s) := by
  obtain ⟨i, la0, la1, before⟩ := j
  obtain ⟨rfl, rfl⟩ | ⟨rfl, rfl⟩ := hc <;> subst hd
  · rfl
  · simp [afterReadOf, afterReadChunk, Job.events, Job.writes, Job.payload, commandEvents, commandWrites, chunkBytes,
      byteEvents_append, payloadCountOf, payloadBaseOf, crc32]

/-- The last event of a CHUNK is its flush (43_framer.md R153). -/
theorem Job.getLast?_events_chunk (j : Job) (s : State) (hi : j.instr = .chunk) :
    (j.events s).getLast? = some .flush := by
  simp [Job.events, commandEvents, hi]

theorem InFlight.current_of_lt {f : InFlight} {k : Nat} {c : Word} {buf : List Byte}
    (hp : f.progress = .reading k c buf) (hk : k < f.count) : f.current = .reading k c buf := by
  simp [InFlight.current, hp, hk]

theorem InFlight.current_of_not_lt {f : InFlight} {k : Nat} {c : Word} {buf : List Byte}
    (hp : f.progress = .reading k c buf) (hk : ¬ k < f.count) : f.current = f.afterRead c buf := by
  simp [InFlight.current, hp, hk]

/-- A command that follows its rule still does when it goes on from its last payload read. -/
theorem Job.Follows.current {j : Job} {s : State} {p : Progress} (h : j.Follows s p) :
    j.Follows s (j.latched p).current := by
  cases h with
  | reading k c buf hc hk hb ho =>
    by_cases hlt : k < payloadCountOf j.instr j.la1
    · rw [InFlight.current_of_lt rfl (by rwa [Job.latched_count])]
      exact .reading k c buf hc hk hb ho
    · obtain rfl : k = payloadCountOf j.instr j.la1 := by omega
      rw [InFlight.current_of_not_lt rfl (by simp), Job.latched_afterRead, hc.afterRead hb]
      refine .emitting [] _ _ rfl rfl (by simp [ho]) fun hi he => ?_
      have hlast := j.getLast?_events_chunk s hi
      simp [he] at hlast
  | emitting sent todo wr hw he ho ha => exact .emitting sent todo wr hw he ho ha
  | awaitingAck sent todo wr hw he ho => exact .awaitingAck sent todo wr hw he ho

/-! ### The five small steps of a command that follows its rule -/

section SmallSteps

variable {j : Job} {s : State} {r : Readiness} {p : Progress} {todo : List OutEvent} {wr : Writes}

/-- A payload read folds and keeps the next byte of the range. -/
theorem Job.Follows.after_readNext {k : Nat} {c : Word} {buf : List Byte} (h : j.Follows s (.reading k c buf))
    (hk : k < payloadCountOf j.instr j.la1) :
    ∃ q, (readNext (j.latched p) k c buf (setReady r s)).inflight = some (j.latched q) ∧
      j.Follows (readNext (j.latched p) k c buf (setReady r s)) q := by
  refine ⟨_, rfl, ?_⟩
  cases h with
  | reading _ _ _ hc _ hb ho =>
    refine .reading (k + 1) _ _ ?_ hk ?_ ho
    · obtain ⟨hi, rfl⟩ | ⟨hi, rfl⟩ := hc
      · exact .inl ⟨hi, (crcFold_snoc ..).symm⟩
      · exact .inr ⟨hi, (crcFold_snoc ..).symm⟩
    · rw [hb, Job.latched_base]
      exact (Memory.bytes_succ ..).symm

/-- An accepted byte is the next event of the rule. -/
theorem Job.Follows.after_emitByte {b : Byte} (h : j.Follows s (.emitting (.byte b :: todo) wr)) :
    j.Follows (goOn (j.latched p) (.emitting todo wr) (emitByte b (setReady r s))) (.emitting todo wr) := by
  cases h with
  | emitting sent _ _ hw he ho _ =>
    refine .emitting (sent ++ [OutEvent.byte b]) todo wr hw (he.trans (List.append_cons ..)) (by simp [ho])
      fun hi ht => ?_
    have hlast := j.getLast?_events_chunk s hi
    simp [he, ht] at hlast

/-- A flush request puts the rule's `Flush` out. -/
theorem Job.Follows.after_requestFlush (h : j.Follows s (.emitting (.flush :: todo) wr)) :
    j.Follows (goOn (j.latched p) (.awaitingAck todo wr) (requestFlush (setReady r s))) (.awaitingAck todo wr) := by
  cases h with
  | emitting sent _ _ hw he ho _ =>
    exact .awaitingAck sent todo wr hw (he.trans (List.append_cons ..)) (by simp [ho])

/-- An acknowledgment covers everything put out so far (20_memory.md R61). -/
theorem Job.Follows.after_ackFlush (h : j.Follows s (.awaitingAck todo wr)) :
    j.Follows (goOn (j.latched p) (.emitting todo wr) (ackFlush (setReady r s))) (.emitting todo wr) := by
  cases h with
  | awaitingAck sent _ _ hw he ho => exact .emitting (sent ++ [OutEvent.flush]) todo wr hw he ho fun _ _ => rfl

end SmallSteps

/-! ### The engine's run from acceptance to completion -/

/-- `t` is a state on the engine's run from `s` in which the command is still in flight: nothing of its effects but
its output is there yet (30_encoding.md R96). -/
structure Job.UnderWay (j : Job) (s t : State) : Prop where
  busy : t.busy = true
  inflight : ∃ p, t.inflight = some (j.latched p) ∧ j.Follows t p
  pmem : t.pmem = s.pmem
  acc : t.acc = s.acc
  result : t.result = s.result
  sentLen : .flush ∉ j.events s → t.sentLen = s.sentLen

/-- `t` is the state on the engine's run from `s` in which the command has completed, with all that its rule gives. -/
structure Job.Completed (j : Job) (s t : State) : Prop where
  busy : t.busy = false
  inflight : t.inflight = none
  acc : t.acc = (j.writes s).acc.getD s.acc
  result : t.result = (j.writes s).result.getD s.result
  out : t.out = j.before ++ j.events s
  acked : j.instr = .chunk → t.sentLen = t.out.length
  sentLen : .flush ∉ j.events s → t.sentLen = s.sentLen

theorem Job.events_congr {j : Job} {s t : State} (h : t.pmem = s.pmem) : j.events t = j.events s := by
  simp [Job.events, h]

theorem Job.writes_congr {j : Job} {s t : State} (hm : t.pmem = s.pmem) (ha : t.acc = s.acc) :
    j.writes t = j.writes s := by
  simp [Job.writes, hm, ha]

/-- A small step takes the command on or completes it. -/
theorem Job.UnderWay.after_engineStep {j : Job} {s t u : State} (h : j.UnderWay s t) (hu : engineStep t = some u) :
    j.UnderWay s u ∨ j.Completed s u := by
  obtain ⟨hbusy, ⟨p, hp, hfollows⟩, hpmem, hacc, hresult, hsent⟩ := h
  obtain ⟨f, hf, hstep⟩ := engineStep_cases hu
  obtain rfl : j.latched p = f := Option.some.inj (hp.symm.trans hf)
  have hcur := hfollows.current
  rcases hstep with ⟨k, c, buf, m, hc, -, rfl⟩ | ⟨wr, e, hc, -, rfl⟩ | ⟨b, todo, wr, k, hc, -, rfl⟩ |
    ⟨todo, wr, e, hc, -, rfl⟩ | ⟨todo, wr, a, hc, -, rfl⟩ <;> rw [hc] at hcur
  case inl =>
    have hk := (InFlight.current_reading hc).2
    rw [Job.latched_count] at hk
    exact .inl ⟨hbusy, hcur.after_readNext hk, hpmem, hacc, hresult, hsent⟩
  case inr.inl =>
    cases hcur with
    | emitting sent _ _ hw he ho ha =>
      rw [Job.events_congr hpmem, List.append_nil] at he
      rw [Job.writes_congr hpmem hacc] at hw
      exact .inr ⟨rfl, rfl, by simp [hw, hacc], by simp [hw, hresult], by simp [ho, he], fun hi => ha hi rfl, hsent⟩
  case inr.inr.inl => exact .inl ⟨hbusy, ⟨_, rfl, hcur.after_emitByte⟩, hpmem, hacc, hresult, hsent⟩
  case inr.inr.inr.inl => exact .inl ⟨hbusy, ⟨_, rfl, hcur.after_requestFlush⟩, hpmem, hacc, hresult, hsent⟩
  case inr.inr.inr.inr =>
    refine .inl ⟨hbusy, ⟨_, rfl, hcur.after_ackFlush⟩, hpmem, hacc, hresult, fun hno => absurd ?_ hno⟩
    cases hcur with
    | awaitingAck sent _ _ _ he _ =>
      rw [← Job.events_congr hpmem, he]
      simp

/-- The engine's run leaves the command under way or completes it. -/
theorem Job.UnderWay.after_advance {j : Job} {s t : State} (h : j.UnderWay s t) :
    j.UnderWay s (advance t) ∨ j.Completed s (advance t) := by
  refine advance_induction (fun u => j.UnderWay s u ∨ j.Completed s u) (fun u v hu hv => ?_) (.inl h)
  rcases hu with hu | hu
  · exact hu.after_engineStep hv
  · simp [engineStep, hu.inflight] at hv

theorem Job.UnderWay.consistent {j : Job} {s t : State} (h : j.UnderWay s t) (f : InFlight)
    (hf : t.inflight = some f) : Consistent t f := by
  obtain ⟨p, hp, hj⟩ := h.inflight
  exact consistent_iff.mpr ⟨j, p, Option.some.inj (hf.symm.trans hp), hj⟩

/-- The command `i` as `s` would accept it. -/
def jobOf (i : Instr) (s : State) : Job := ⟨i, s.arg0, s.arg1, s.out⟩

/-- The first progress of a command follows its rule. -/
theorem accept_follows (i : Instr) (s : State) :
    (jobOf i s).Follows (accept i (startOf i) s) (startOf i s.acc s.arg0 s.arg1) := by
  cases i
  case crcBuf => exact .reading 0 _ _ (.inl ⟨rfl, rfl⟩) (Nat.zero_le _) rfl rfl
  case chunk => exact .reading 0 _ _ (.inr ⟨rfl, rfl⟩) (Nat.zero_le _) rfl rfl
  all_goals exact .emitting [] _ _ rfl rfl (List.append_nil _).symm (by rintro ⟨⟩)

/-- Acceptance puts the command under way (30_encoding.md R95). -/
theorem accept_underWay (i : Instr) (s : State) : (jobOf i s).UnderWay s (accept i (startOf i) s) :=
  ⟨rfl, ⟨_, rfl, accept_follows i s⟩, rfl, rfl, rfl, fun _ => rfl⟩

/-- What `exec` answers (30_encoding.md R95): a command presented while BUSY is 1 raises ERR_BUSY; any other is
accepted and the engine goes on. -/
theorem exec_next_cases {i : Instr} {s t : State} (h : exec i s = .next t) :
    s.busy = true ∧ t = raiseError .errBusy s ∨ s.busy = false ∧ t = advance (accept i (startOf i) s) := by
  cases hb : s.busy with
  | true => exact .inl ⟨rfl, Host.Outcome.next.inj (h.symm.trans (exec_of_busy i hb))⟩
  | false => exact .inr ⟨rfl, Host.Outcome.next.inj (h.symm.trans (exec_of_idle i hb))⟩

/-! ### What a step does to the engine -/

/-- `t` agrees with `s` in all that the invariant speaks of and in RESULT. -/
structure SameEngine (s t : State) : Prop where
  busy : t.busy = s.busy := by rfl
  inflight : t.inflight = s.inflight := by rfl
  pmem : t.pmem = s.pmem := by rfl
  acc : t.acc = s.acc := by rfl
  result : t.result = s.result := by rfl
  out : t.out = s.out := by rfl
  sentLen : t.sentLen = s.sentLen := by rfl

/-- The turns in which the engine goes on (log entry 5). -/
def EngineTurn (s : State) (x : Turn) : Prop :=
  (∃ r, x = .env r) ∨ x = .driver ∧ (s.driver = [] ∨ ∃ rest, s.driver = .wait :: rest)

/-- The moves of one turn from `s`, told apart by what they do to the engine. -/
inductive EngineMove (s : State) : Turn → State → Prop where
  | aside (x : Turn) (t : State) : SameEngine s t → EngineMove s x t
  | store (x : Turn) (a : Word) (b : Byte) (t : State) : s.inflight.any (fun f => f.owns a) = false →
      SameEngine (setPmem (s.pmem.write a b) s) t → EngineMove s x t
  | run (x : Turn) (u : State) : EngineTurn s x → SameEngine s u → EngineMove s x (advance u)
  | acceptance (w : Word) (i : Instr) (rest : List DriverOp) : s.driver = .write 4 0x00 w :: rest →
      decode w = .command i → s.busy = false →
      EngineMove s .driver (advance (accept i (startOf i) (setDriver rest s)))
  | reset : EngineMove s .reset (resetBlock s)

/-- An operation of the driver leaves the engine alone, stores, or is a command word accepted. -/
theorem Made.engineMove {s t : State} {op : DriverOp} {rest : List DriverOp} (hd : s.driver = op :: rest)
    (h : Made (setDriver rest s) op t) : EngineMove s .driver t := by
  cases h with
  | command w i _ hw ht =>
    rcases exec_next_cases ht with ⟨-, rfl⟩ | ⟨hb, rfl⟩
    · exact .aside _ _ {}
    · exact .acceptance w i rest hd hw hb
  | illegalWord w e _ =>
    generalize (if (setDriver rest s).busy then ErrorCause.errBusy else .errOpcode) = c
    cases c <;> exact .aside _ _ {}
  | store a b ho => exact .store _ a b _ ho {}
  | _ => exact .aside _ _ {}

theorem Moved.engineMove {s t : State} {x : Turn} (h : Moved s x t) : EngineMove s x t := by
  cases h with
  | idle hd => exact .run _ s (.inr ⟨rfl, .inl hd⟩) {}
  | made op rest _ hd hm => exact hm.engineMove hd
  | poll rest hd =>
    unfold pollStatus
    split
    · exact .run _ _ (.inr ⟨rfl, .inr ⟨rest, hd⟩⟩) {}
    · exact .aside _ _ {}
  | env r => exact .run _ _ (.inl ⟨r, rfl⟩) {}
  | store a b ho => exact .store _ a b _ ho {}
  | reset => exact .reset

theorem step_engineMove {s t : State} (h : step s = .next t) :
    EngineMove (setSched s.sched.tail s) (s.sched.headD .driver) t :=
  (step_moved h).engineMove

/-! ### The invariant -/

/-- A command's events and writes depend on the payload memory through its own range only. -/
theorem commandEvents_congr {i : Instr} {m m' : Memory} {la0 la1 : Word}
    (h : m'.bytes (payloadBaseOf i la0) (payloadCountOf i la1) =
      m.bytes (payloadBaseOf i la0) (payloadCountOf i la1)) :
    commandEvents i m' la0 la1 = commandEvents i m la0 la1 := by
  cases i
  case chunk => exact congrArg (fun bs => byteEvents (chunkBytes (chunkIndex la1) bs) ++ [.flush]) h
  all_goals rfl

theorem commandWrites_congr {i : Instr} {m m' : Memory} {acc la0 la1 : Word}
    (h : m'.bytes (payloadBaseOf i la0) (payloadCountOf i la1) =
      m.bytes (payloadBaseOf i la0) (payloadCountOf i la1)) :
    commandWrites i m' acc la0 la1 = commandWrites i m acc la0 la1 := by
  cases i
  case crcBuf =>
    exact congrArg (fun bs => Writes.mk (some (crcFold acc bs ^^^ 0xFFFFFFFF#32)) (some (crcFold acc bs))) h
  case chunk => exact congrArg (fun bs => Writes.mk (some (crc32 bs)) none) h
  all_goals rfl

/-- A store that is no `PayloadRace` leaves the command in flight on its rule (70_reset_and_hazards.md R237). -/
theorem Job.Follows.after_store {j : Job} {s : State} {p : Progress} {a : Word} {b : Byte} (h : j.Follows s p)
    (hown : (j.latched p).owns a = false) : j.Follows (setPmem (s.pmem.write a b) s) p := by
  have hout : ¬ (a - payloadBaseOf j.instr j.la0).toNat < payloadCountOf j.instr j.la1 := by
    simpa [InFlight.owns] using hown
  have hrange : ∀ k ≤ payloadCountOf j.instr j.la1,
      j.payload (setPmem (s.pmem.write a b) s) k = j.payload s k := fun k hk =>
    Memory.bytes_write_outside _ _ _ _ _ fun hlt => hout (hlt.trans_le hk)
  have hevents : j.events (setPmem (s.pmem.write a b) s) = j.events s := commandEvents_congr (hrange _ le_rfl)
  have hwrites : j.writes (setPmem (s.pmem.write a b) s) = j.writes s := commandWrites_congr (hrange _ le_rfl)
  cases h with
  | reading k c buf hc hk hb ho => exact .reading k c buf hc hk (hb.trans (hrange k hk).symm) ho
  | emitting sent todo wr hw he ho ha =>
    exact .emitting sent todo wr (hw.trans hwrites.symm) (hevents.trans he) ho ha
  | awaitingAck sent todo wr hw he ho =>
    exact .awaitingAck sent todo wr (hw.trans hwrites.symm) (hevents.trans he) ho

theorem State.Inv.of_sameEngine {s t : State} (h : s.Inv) (e : SameEngine s t) : t.Inv where
  memWf := e.pmem ▸ h.memWf
  busyIff := by rw [e.busy, e.inflight, h.busyIff]
  sentLe := by rw [e.sentLen, e.out]; exact h.sentLe
  consistent f hf := by
    have hc := h.consistent f (e.inflight ▸ hf)
    simpa only [Consistent, e.pmem, e.acc, e.out, e.sentLen] using hc

theorem State.Inv.after_store {s : State} {a : Word} {b : Byte} (h : s.Inv)
    (ho : s.inflight.any (fun f => f.owns a) = false) : (setPmem (s.pmem.write a b) s).Inv where
  memWf := Memory.wf_write _ a b h.memWf
  busyIff := h.busyIff
  sentLe := h.sentLe
  consistent f hf := by
    obtain ⟨j, p, rfl, hj⟩ := consistent_iff.mp (h.consistent f hf)
    rw [show s.inflight = _ from hf] at ho
    exact consistent_iff.mpr ⟨j, p, rfl, hj.after_store ho⟩

/-- A small step keeps the acknowledged length within `OUT`. -/
theorem engineStep_sentLe {s t : State} (hs : s.sentLen ≤ s.out.length) (h : engineStep s = some t) :
    t.sentLen ≤ t.out.length := by
  obtain ⟨f, -, h⟩ := engineStep_cases h
  rcases h with ⟨k, c, buf, m, -, -, rfl⟩ | ⟨wr, e, -, -, rfl⟩ | ⟨b, todo, wr, k, -, -, rfl⟩ |
    ⟨todo, wr, e, -, -, rfl⟩ | ⟨todo, wr, a, -, -, rfl⟩ <;> simp <;> omega

/-- The engine's run of a command under way ends in a state that meets the invariant. -/
theorem Job.UnderWay.inv_after_advance {j : Job} {s t : State} (h : j.UnderWay s t) (hm : t.pmem.wf = true)
    (hs : t.sentLen ≤ t.out.length) : (advance t).Inv := by
  have hmem : (advance t).pmem.wf = true := by
    obtain ⟨-, -, -, -, hp, -⟩ := advance_frame t
    rwa [hp]
  have hsent : (advance t).sentLen ≤ (advance t).out.length :=
    advance_induction (fun u => u.sentLen ≤ u.out.length) (fun _ _ => engineStep_sentLe) hs
  rcases h.after_advance with hu | hc
  · obtain ⟨p, hp, -⟩ := hu.inflight
    exact ⟨hmem, by rw [hu.busy, hp]; rfl, hsent, hu.consistent⟩
  · exact ⟨hmem, by rw [hc.busy, hc.inflight]; rfl, hsent, by simp [hc.inflight]⟩

theorem advance_of_idle {s : State} (h : s.inflight = none) : advance s = s :=
  advance_of_stuck (by simp [engineStep, h])

/-- From a state that meets the invariant with BUSY 1, the command in flight is under way. -/
theorem State.Inv.underWay {s u : State} (h : s.Inv) (hb : s.busy = true) (e : SameEngine s u) :
    ∃ (j : Job) (p : Progress), s.inflight = some (j.latched p) ∧ j.UnderWay s u := by
  obtain ⟨f, hf⟩ := Option.isSome_iff_exists.mp (h.busyIff ▸ hb)
  obtain ⟨j, p, rfl, hj⟩ := consistent_iff.mp ((h.of_sameEngine e).consistent f (e.inflight.trans hf))
  exact ⟨j, p, hf, e.busy.trans hb, ⟨p, e.inflight.trans hf, hj⟩, e.pmem, e.acc, e.result, fun _ => e.sentLen⟩

theorem State.Inv.inflight_eq_none {s : State} (h : s.Inv) (hb : s.busy = false) : s.inflight = none :=
  Option.isNone_iff_eq_none.mp (Option.isSome_eq_false_iff.mp (h.busyIff.symm.trans hb))

theorem State.Inv.after_advance {s : State} (h : s.Inv) : (advance s).Inv := by
  cases hb : s.busy with
  | false => rwa [advance_of_idle (h.inflight_eq_none hb)]
  | true =>
    obtain ⟨j, p, -, hj⟩ := h.underWay hb {}
    exact hj.inv_after_advance h.memWf h.sentLe

theorem State.Inv.after_accept {s : State} (h : s.Inv) (i : Instr) : (advance (accept i (startOf i) s)).Inv :=
  (accept_underWay i s).inv_after_advance h.memWf h.sentLe

theorem State.Inv.after_resetBlock {s : State} (h : s.Inv) : (resetBlock s).Inv :=
  ⟨h.memWf, rfl, h.sentLe, by simp⟩

theorem State.Inv.engineMove {s t : State} {x : Turn} (h : s.Inv) (hm : EngineMove s x t) : t.Inv := by
  cases hm with
  | aside _ _ e => exact h.of_sameEngine e
  | store _ a b _ ho e => exact (h.after_store ho).of_sameEngine e
  | run _ u _ e => exact (h.of_sameEngine e).after_advance
  | acceptance w i rest _ _ _ => exact (h.of_sameEngine (t := setDriver rest s) {}).after_accept i
  | reset => exact h.after_resetBlock

/-- Settles O5: each of the five ways a move treats the engine keeps the invariant. -/
theorem everyStepKeepsInvariant : Obligations.EveryStepKeepsInvariant := fun s t h hst =>
  (h.of_sameEngine (t := setSched s.sched.tail s) {}).engineMove (step_engineMove hst)

/-- Settles O4: nothing is in flight, nothing is listed and nothing is put out. -/
theorem resetStateMeetsInvariant : Obligations.ResetStateMeetsInvariant :=
  ⟨rfl, rfl, le_rfl, nofun⟩

/-! ### BUSY and the latches -/

/-- BUSY rises only where a command word is accepted, and the command in flight is then that command. -/
theorem EngineMove.accepted_of_busy_rises {s t : State} {x : Turn} (hm : EngineMove s x t) (h : s.Inv)
    (hs : s.busy = false) (ht : t.busy = true) :
    x = .driver ∧ ∃ w i rest p, s.driver = .write 4 0x00 w :: rest ∧ decode w = .command i ∧
      t.inflight = some ((jobOf i s).latched p) := by
  cases hm with
  | aside _ _ e => simp [e.busy, hs] at ht
  | store _ _ _ _ _ e => simp [e.busy, hs] at ht
  | run _ u _ e =>
    rw [advance_of_idle (e.inflight.trans (h.inflight_eq_none hs)), e.busy, hs] at ht
    cases ht
  | acceptance w i rest hd hw _ =>
    rcases (accept_underWay i (setDriver rest s)).after_advance with hu | hc
    · obtain ⟨p, hp, -⟩ := hu.inflight
      exact ⟨rfl, w, i, rest, p, hd, hw, hp⟩
    · rw [hc.busy] at ht
      cases ht
  | reset => cases ht

/-- BUSY falls only by the reset input or by the completion of the command in flight. -/
theorem EngineMove.completed_of_busy_falls {s t : State} {x : Turn} (hm : EngineMove s x t) (h : s.Inv)
    (hs : s.busy = true) (ht : t.busy = false) :
    x = .reset ∨ EngineTurn s x ∧ ∃ (j : Job) (p : Progress), s.inflight = some (j.latched p) ∧ j.Completed s t := by
  cases hm with
  | aside _ _ e => simp [e.busy, hs] at ht
  | store _ _ _ _ _ e => simp [e.busy, hs] at ht
  | run _ u hx e =>
    obtain ⟨j, p, hp, hj⟩ := h.underWay hs e
    rcases hj.after_advance with hu | hc
    · rw [hu.busy] at ht
      cases ht
    · exact .inr ⟨hx, j, p, hp, hc⟩
  | acceptance _ _ _ _ _ hb => simp [hs] at hb
  | reset => exact .inl rfl

/-- A command in flight before and after a move is the same command with the same latches. -/
theorem EngineMove.latches {s t : State} {x : Turn} {f g : InFlight} (hm : EngineMove s x t) (h : s.Inv)
    (hf : s.inflight = some f) (hg : t.inflight = some g) : g.lop = f.lop ∧ g.la0 = f.la0 ∧ g.la1 = f.la1 := by
  have hb : s.busy = true := by rw [h.busyIff, hf]; rfl
  have same : t.inflight = s.inflight → g.lop = f.lop ∧ g.la0 = f.la0 ∧ g.la1 = f.la1 := fun he => by
    obtain rfl := Option.some.inj (hg.symm.trans (he.trans hf))
    exact ⟨rfl, rfl, rfl⟩
  cases hm with
  | aside _ _ e => exact same e.inflight
  | store _ _ _ _ _ e => exact same e.inflight
  | run _ u _ e =>
    obtain ⟨j, p, hp, hj⟩ := h.underWay hb e
    obtain rfl := Option.some.inj (hf.symm.trans hp)
    rcases hj.after_advance with hu | hc
    · obtain ⟨q, hq, -⟩ := hu.inflight
      obtain rfl := Option.some.inj (hg.symm.trans hq)
      exact ⟨rfl, rfl, rfl⟩
    · cases hg.symm.trans hc.inflight
  | acceptance _ _ _ _ _ hidle => cases hb.symm.trans hidle
  | reset => cases hg

/-- Settles O47: a rise is an acceptance, which latches the word's opcode; a fall is a reset or a completion. -/
theorem busyFollowsAcceptanceAndCompletion : Obligations.BusyFollowsAcceptanceAndCompletion := by
  intro s t h hst
  have hm := step_engineMove hst
  have hu : (setSched s.sched.tail s).Inv := h.of_sameEngine {}
  refine ⟨fun hs ht => ?_, fun hs ht => ?_⟩
  · obtain ⟨hx, w, i, rest, p, hd, hw, hp⟩ := hm.accepted_of_busy_rises hu hs ht
    obtain ⟨-, hopc⟩ := fields_of_decode hw
    exact ⟨hx, w, rest, hd, eq_encode_of_decode hw ▸ wellFormed_encode i, _, hp, hopc.symm, rfl, rfl⟩
  · rcases hm.completed_of_busy_falls hu hs ht with hx | ⟨hx, j, p, hp, hc⟩
    · exact .inl hx
    · exact .inr ⟨hx, j.latched p, j.instr, j.before, hp, hc.inflight, decodeOpcode_opcode j.instr, hc.result, hc.acc,
        hc.out, hc.acked⟩

/-- Settles O48: the engine's run keeps the latches, and nothing else touches a command in flight but the reset. -/
theorem latchesHoldWhileInFlight : Obligations.LatchesHoldWhileInFlight := fun s t f g h hst hf hg =>
  (step_engineMove hst).latches (h.of_sameEngine (t := setSched s.sched.tail s) {}) hf hg

/-! ### What a command changes and leaves unchanged -/

/-- The engine's run only appends to `OUT` (20_memory.md R59). -/
theorem out_prefix_advance (s : State) : s.out <+: (advance s).out :=
  advance_induction (fun t => s.out <+: t.out) (fun _ _ h hstep => h.trans (engineStep_out hstep)) List.prefix_rfl

/-- Settles O42: a command turned away sets ERR_BUSY, and neither acceptance nor the engine's run touches the rest. -/
theorem commandFrame : Obligations.CommandFrame := by
  intro i s t h
  rcases exec_next_cases h with ⟨hb, rfl⟩ | ⟨-, rfl⟩
  · simp [hb]
  · obtain ⟨ho, he, h0, h1, hm, hd, hs, hr⟩ := advance_frame (accept i (startOf i) s)
    exact ⟨h0, h1, ho, fun _ => he, fun a => congrArg (Memory.read · a) hm, hd, hs, hr,
      out_prefix_advance (accept i (startOf i) s)⟩

/-- A command under way has put out the first ones of its events. -/
theorem Job.UnderWay.out {j : Job} {s t : State} (h : j.UnderWay s t) :
    ∃ sent, sent <+: j.events s ∧ t.out = j.before ++ sent := by
  obtain ⟨p, -, hj⟩ := h.inflight
  rw [← Job.events_congr h.pmem]
  cases hj with
  | reading k c buf _ _ _ ho => exact ⟨[], List.nil_prefix, by simpa using ho⟩
  | emitting sent todo wr _ he ho _ => exact ⟨sent, he ▸ List.prefix_append .., ho⟩
  | awaitingAck sent todo wr _ he ho => exact ⟨_, he ▸ List.prefix_append .., ho⟩

/-- What `exec` can have done to RESULT, ACC, `OUT` and the acknowledged length: nothing yet, or what the command's
rule gives; and of its events the first ones. -/
theorem exec_effects {i : Instr} {s t : State} (h : exec i s = .next t) :
    (t.result = s.result ∨ t.result = ((jobOf i s).writes s).result.getD s.result) ∧
      (t.acc = s.acc ∨ t.acc = ((jobOf i s).writes s).acc.getD s.acc) ∧
      (∃ sent, sent <+: (jobOf i s).events s ∧ t.out = s.out ++ sent) ∧
      (.flush ∉ (jobOf i s).events s → t.sentLen = s.sentLen) := by
  rcases exec_next_cases h with ⟨-, rfl⟩ | ⟨-, rfl⟩
  · exact ⟨.inl rfl, .inl rfl, ⟨[], List.nil_prefix, (List.append_nil _).symm⟩, fun _ => rfl⟩
  · rcases (accept_underWay i s).after_advance with hu | hc
    · exact ⟨.inl hu.result, .inl hu.acc, hu.out, hu.sentLen⟩
    · exact ⟨.inr hc.result, .inr hc.acc, ⟨_, List.prefix_rfl, hc.out⟩, hc.sentLen⟩

/-- Only CHUNK flushes: the events of every other command are bytes (20_memory.md R61). -/
theorem exists_commandEvents_eq_byteEvents {i : Instr} (hi : i ≠ .chunk) (m : Memory) (la0 la1 : Word) :
    ∃ bs, commandEvents i m la0 la1 = byteEvents bs := by
  cases i
  case chunk => exact absurd rfl hi
  case put16 | put32 | hdr => exact ⟨_, rfl⟩
  all_goals exact ⟨[], rfl⟩

/-- Settles O43: what a command writes and puts out is at most what its rule gives. -/
theorem resultRegistersAndOutputFrame : Obligations.ResultRegistersAndOutputFrame := by
  intro i s t h
  obtain ⟨hresult, hacc, ⟨sent, hsent, hout⟩, hlen⟩ := exec_effects h
  refine ⟨?_, ?_, ?_, fun hi => ?_⟩
  · rintro (rfl | rfl | rfl) <;> exact hresult.elim id id
  · rintro (rfl | rfl | rfl | rfl | rfl) <;> exact hacc.elim id id
  · rintro (rfl | rfl | rfl | rfl) <;> rw [hout, List.prefix_nil.mp hsent, List.append_nil]
  · obtain ⟨bs, hbs⟩ := exists_commandEvents_eq_byteEvents hi s.pmem s.arg0 s.arg1
    obtain ⟨rest, hrest⟩ := hsent
    obtain ⟨sentBytes, _, -, hmap, -⟩ := List.map_eq_append_iff.mp (hbs.symm.trans hrest.symm)
    refine ⟨hlen ?_, sentBytes, by rw [hout, hmap]⟩
    rw [show (jobOf i s).events s = byteEvents bs from hbs]
    simp [byteEvents]

/-! ### Reset values, and how a command word reaches `exec` -/

/-- Settles O3: each of the eight offsets selects its own register, at its reset value. -/
theorem registerWindowReadsAsResetColumn : Obligations.RegisterWindowReadsAsResetColumn := by
  unfold Obligations.RegisterWindowReadsAsResetColumn
  decide

/-- Settles O9: the access is one of the port, and CMD hands a legal word to its command. -/
theorem stepRunsDecodedCommand : Obligations.StepRunsDecodedCommand := by
  intro s u w i h hw
  rw [step_of_issues_write h (by decide)]
  simp [writeReg, writeCmd, hw]

/-- In `presentWord w s` the driver issues the write of `w` to CMD, at `s` with an idle engine (log entry 16). -/
theorem issues_presentWord (w : Word) (s : State) :
    Issues (presentWord w s) (.write 4 0x00 w) { s with busy := false, inflight := none } :=
  ⟨rfl, .inl rfl, rfl⟩

/-- A table word of 32 bits is the command the decoder reads from it (30_encoding.md R85). -/
theorem decode_of_decodeTableWord {w : Nat} {i : Instr} (h : decodeTableWord 32 w = some i) :
    decode (BitVec.ofNat 32 (w % 2 ^ 32)) = .command i := by
  unfold decodeTableWord at h
  rw [if_pos (Nat.mod_lt _ (by decide))] at h
  split at h
  · cases h
    assumption
  · cases h

/-- Settles O10: the word placed is the driver's next write of CMD, so O9 applies. -/
theorem fetchWordRunsAsNextStep : Obligations.FetchWordRunsAsNextStep := fun s _ i h =>
  stepRunsDecodedCommand _ _ _ i (issues_presentWord _ s) (decode_of_decodeTableWord h)

end Sys2Proof.Machine
end

section
/-! PROOFS of the memory family (20_memory.md): the register port, the payload memory, the output stream, and a
command's independence of how fast its environment answers. -/

namespace Sys2Proof.Machine

/-! ### What an error, whatever its cause, leaves alone (60_exceptions.md R205) -/

@[simp] theorem raiseError_pmem (c : ErrorCause) (s : State) : (raiseError c s).pmem = s.pmem := by
  cases c <;> rfl

@[simp] theorem raiseError_driver (c : ErrorCause) (s : State) : (raiseError c s).driver = s.driver := by
  cases c <;> rfl

@[simp] theorem raiseError_sched (c : ErrorCause) (s : State) : (raiseError c s).sched = s.sched := by
  cases c <;> rfl

/-! ### The engine's run and the environment's pace -/

/-- A small step is enabled under an environment that answers everything too, and does the same there. -/
theorem engineStep_setReady_free {s t : State} (h : engineStep s = some t) :
    engineStep (setReady Readiness.free s) = some (setReady Readiness.free t) := by
  obtain ⟨f, hf, h⟩ := engineStep_cases h
  rcases h with ⟨k, c, buf, m, hc, -, rfl⟩ | ⟨wr, e, hc, -, rfl⟩ | ⟨b, todo, wr, k, hc, -, rfl⟩ |
    ⟨todo, wr, e, hc, -, rfl⟩ | ⟨todo, wr, a, hc, -, rfl⟩ <;>
    simp only [engineStep, setReady_inflight, hf, hc] <;> rfl

/-- Once the environment answers everything, it does not matter how far the engine had already got (20_memory.md R58,
R60). -/
theorem advance_setReady_free_advance (s : State) :
    advance (setReady Readiness.free (advance s)) = advance (setReady Readiness.free s) :=
  advance_induction (fun t => advance (setReady Readiness.free t) = advance (setReady Readiness.free s))
    (fun _ _ ht hstep => (advance_of_step (engineStep_setReady_free hstep)).symm.trans ht) rfl

/-- Settles O37: acceptance commutes with the readiness, and the run from it is the free run cut in two. -/
theorem outcomeIndependentOfPace : Obligations.OutcomeIndependentOfPace := fun i s r hb =>
  ⟨_, _, exec_of_idle i (s := { s with ready := r }) hb, exec_of_idle i (s := { s with ready := Readiness.free }) hb,
    advance_setReady_free_advance (accept i (startOf i) { s with ready := r })⟩

/-- Settles O38: with a command in flight BUSY is 1, and what makes it fall but the reset is the completion of O47. -/
theorem busyZeroMeansCommandComplete : Obligations.BusyZeroMeansCommandComplete := by
  intro s t f h hf hst ht hreset
  have hb : s.busy = true := by rw [h.busyIff, hf]; rfl
  obtain hx | ⟨-, g, i, before, hg, -, heffects⟩ := (busyFollowsAcceptanceAndCompletion s t h hst).2 hb ht
  · exact absurd hx hreset
  · obtain rfl := Option.some.inj (hf.symm.trans hg)
    exact ⟨i, before, heffects⟩

/-! ### The payload memory -/

/-- The command in flight owns exactly the addresses of its range (20_memory.md R56, 70_reset_and_hazards.md R237). -/
theorem InFlight.owns_iff {f : InFlight} {a : Word} :
    f.owns a = true ↔ ∃ k < f.count, a = f.base + BitVec.ofNat 32 k := by
  rw [InFlight.owns, decide_eq_true_eq]
  constructor
  · intro h
    refine ⟨_, h, ?_⟩
    rw [BitVec.ofNat_toNat, BitVec.setWidth_eq, BitVec.add_comm, BitVec.sub_add_cancel]
  · rintro ⟨k, hk, rfl⟩
    rw [BitVec.add_comm, BitVec.add_sub_cancel, BitVec.toNat_ofNat]
    exact (Nat.mod_le _ _).trans_lt hk

/-- Only CRC_BUF and CHUNK read the payload memory, from LA0 on (20_memory.md R55, 30_encoding.md R83). -/
theorem InFlight.range_of_count_pos {f : InFlight} (h : 0 < f.count) :
    f.base = f.la0 ∧ (f.lop = 0x03#8 ∧ f.count = f.la1.toNat ∨
      f.lop = 0x21#8 ∧ f.count = (f.la1.extractLsb' 16 16).toNat) := by
  obtain ⟨lop, la0, la1, p⟩ := f
  cases hi : decodeOpcode lop with
  | none => simp [InFlight.count, hi] at h
  | some i =>
    obtain rfl := eq_opcode_of_decodeOpcode hi
    cases i
    case crcBuf => exact ⟨rfl, .inl ⟨rfl, rfl⟩⟩
    case chunk => exact ⟨rfl, .inr ⟨rfl, rfl⟩⟩
    all_goals cases h

/-- A store to an address the command in flight does not own is made. -/
theorem storeByte_of_not_owned {s : State} {a : Word} (b : Byte)
    (h : s.inflight.any (fun f => f.owns a) = false) :
    storeByte a b s = .next (setPmem (s.pmem.write a b) s) := by
  simp [storeByte, h]

/-- Settles O40: outside both readers' ranges no address is owned, so the store is made, by whichever agent. -/
theorem otherStoresReachPayloadMemory : Obligations.OtherStoresReachPayloadMemory := by
  intro s u a b hm hout
  have hfree : u.inflight.any (fun f => f.owns a) = false := by
    refine Bool.eq_false_iff.mpr fun hany => ?_
    obtain ⟨f, hf, hown⟩ := (Option.any_eq_true _ _).mp hany
    obtain ⟨k, hk, ha⟩ := InFlight.owns_iff.mp hown
    obtain ⟨hbase, ⟨hlop, hcount⟩ | ⟨hlop, hcount⟩⟩ := InFlight.range_of_count_pos (Nat.zero_lt_of_lt hk) <;>
      rw [hbase] at ha <;> rw [hcount] at hk
    · exact (hout f hf).1 hlop k hk ha
    · exact (hout f hf).2 hlop k hk ha
  refine ⟨u.pmem.write a b, Memory.wf_write _ _ _ hm, Memory.read_write_same _ _ _ hm,
    fun a' ha' => Memory.read_write_other _ _ _ _ ha', fun h => ?_, storeByte_of_not_owned b hfree⟩
  rw [step_of_issues h]
  exact storeByte_of_not_owned b hfree

theorem pmem_advance (s : State) : (advance s).pmem = s.pmem := by
  obtain ⟨-, -, -, -, hm, -⟩ := advance_frame s
  exact hm

/-- An operation of the driver leaves the payload memory alone or is a store, which writes its byte. -/
theorem Made.pmem {s t : State} {op : DriverOp} (h : Made s op t) :
    t.pmem = s.pmem ∨ ∃ a b, op = .store a b ∧ t.pmem = s.pmem.write a b := by
  cases h with
  | command w i _ _ ht =>
    rcases exec_next_cases ht with ⟨-, rfl⟩ | ⟨-, rfl⟩
    · exact .inl rfl
    · exact .inl (pmem_advance _)
  | illegalWord w e _ => exact .inl (raiseError_pmem _ s)
  | store a b _ => exact .inr ⟨a, b, rfl, rfl⟩
  | _ => exact .inl rfl

/-- A move leaves the payload memory alone or is one agent's store, which writes its byte. -/
theorem Moved.pmem {s t : State} {x : Turn} (h : Moved s x t) :
    t.pmem = s.pmem ∨ ∃ a b, t.pmem = s.pmem.write a b ∧
      (x = .store a b ∨ x = .driver ∧ ∃ rest, s.driver = .store a b :: rest) := by
  cases h with
  | idle _ => exact .inl (pmem_advance s)
  | made op rest _ hd hm =>
    rcases hm.pmem with hp | ⟨a, b, rfl, hp⟩
    · exact .inl hp
    · exact .inr ⟨a, b, hp, .inr ⟨rfl, rest, hd⟩⟩
  | poll rest _ =>
    unfold pollStatus
    split
    · exact .inl (pmem_advance _)
    · exact .inl rfl
  | env r => exact .inl (pmem_advance _)
  | store a b _ => exact .inr ⟨a, b, rfl, .inl rfl⟩
  | reset => exact .inl rfl

/-- Settles O41: a store to another address would have left this one alone. -/
theorem onlyStoresChangePayloadMemory : Obligations.OnlyStoresChangePayloadMemory := by
  intro s t a hst hne
  rcases (step_moved hst).pmem with hp | ⟨a', b, hp, hx⟩ <;> rw [hp] at hne
  · exact absurd rfl hne
  · obtain rfl : a = a' := by
      by_contra ha
      exact hne (Memory.read_write_other _ _ _ _ ha)
    exact hx.imp (fun hx => ⟨b, hx⟩) fun ⟨hx, rest, hd⟩ => ⟨hx, b, rest, hd⟩

/-! ### The output stream -/

/-- No move takes an event out of `OUT`, whatever it does to the engine. -/
theorem EngineMove.out {s t : State} {x : Turn} (h : EngineMove s x t) : s.out <+: t.out := by
  cases h with
  | aside _ _ e => rw [e.out]
  | store _ _ _ _ _ e => rw [e.out]; exact List.prefix_rfl
  | run _ u _ e => exact e.out ▸ out_prefix_advance u
  | acceptance w i rest _ _ _ => exact out_prefix_advance (accept i (startOf i) (setDriver rest s))
  | reset => exact List.prefix_rfl

/-- Settles O45: only the engine's run puts events out, and it appends them. -/
theorem outputOnlyGrows : Obligations.OutputOnlyGrows := fun _ _ h => (step_engineMove h).out

/-! ### The little-endian encoders -/

/-- What a number is above bit `k` is the byte there and 256 times what it is above that byte. -/
theorem toNat_eq_extractLsb'_add {n : Nat} (v : BitVec n) (k : Nat) :
    v.toNat >>> k = (v.extractLsb' k 8).toNat + 256 * (v.toNat >>> (k + 8)) := by
  rw [BitVec.extractLsb'_toNat, Nat.shiftRight_add, Nat.shiftRight_eq_div_pow _ 8]
  exact (Nat.mod_add_div _ _).symm

/-- Settles O49: peel the bytes off from the lowest one; nothing is left above the last. -/
theorem encodersAreLittleEndian : Obligations.EncodersAreLittleEndian := by
  refine ⟨fun v => ⟨le16_length v, ?_⟩, fun v => ⟨le32_length v, ?_⟩⟩
  · have h0 := toNat_eq_extractLsb'_add v 0
    have h8 := toNat_eq_extractLsb'_add v 8
    have hrest : v.toNat >>> 16 = 0 := Nat.shiftRight_eq_zero _ _ v.isLt
    simp only [le16, List.foldr_cons, List.foldr_nil]
    rw [Nat.shiftRight_zero] at h0
    omega
  · have h0 := toNat_eq_extractLsb'_add v 0
    have h8 := toNat_eq_extractLsb'_add v 8
    have h16 := toNat_eq_extractLsb'_add v 16
    have h24 := toNat_eq_extractLsb'_add v 24
    have hrest : v.toNat >>> 32 = 0 := Nat.shiftRight_eq_zero _ _ v.isLt
    simp only [le32, List.foldr_cons, List.foldr_nil]
    rw [Nat.shiftRight_zero] at h0
    omega

/-! ### The register port -/

/-- STATUS as the OR of its three flags, each in its place (10_state.md R22). -/
theorem statusWord_eq (s : State) :
    statusWord s = (if s.errBusy then 4#32 else 0#32) ||| (if s.errOpcode then 2#32 else 0#32) |||
      (if s.busy then 1#32 else 0#32) := by
  unfold statusWord
  generalize s.errBusy = eb, s.errOpcode = eo, s.busy = bu
  revert eb eo bu
  decide

/-- A write of STATUS clears an error bit exactly where the word has a 1 (20_memory.md R53). -/
theorem writeStatus_eq (w : Word) (s : State) :
    writeStatus w s = { s with
      errOpcode := if w.getLsbD 1 then false else s.errOpcode
      errBusy := if w.getLsbD 2 then false else s.errBusy } := by
  unfold writeStatus
  cases w.getLsbD 1 <;> cases w.getLsbD 2 <;> simp

/-- Settles O16: a read answers `readReg` at its offset, which selects the register. -/
theorem portReadReturnsRegister : Obligations.PortReadReturnsRegister := by
  intro s u off h
  refine ⟨?_, ?_, ?_, ?_, ?_, ?_, ?_⟩
  case refine_2 =>
    rintro rfl
    rw [step_of_issues_read h (by decide), ← statusWord_eq]
    rfl
  case refine_7 => rintro (rfl | rfl) <;> exact step_of_issues_read h (by decide)
  all_goals
    rintro rfl
    exact step_of_issues_read h (by decide)

/-- Settles O17: a write makes `writeReg` at its offset, which has one effect for each. -/
theorem portWriteHasItsEffectOnly : Obligations.PortWriteHasItsEffectOnly := by
  intro s u off w h
  refine ⟨?_, ?_, ?_, ?_, ?_⟩
  case refine_2 =>
    rintro rfl
    rw [step_of_issues_write h (by decide), ← writeStatus_eq]
    rfl
  case refine_5 => rintro (rfl | rfl | rfl | rfl) <;> exact step_of_issues_write h (by decide)
  all_goals
    rintro rfl
    exact step_of_issues_write h (by decide)

theorem portRefusal_of_not_wordAccess {bytes off : Nat} (h : bytes ≠ 4 ∨ off % 4 ≠ 0) :
    portRefusal bytes off = some .notWordAccess :=
  if_pos h

theorem portRefusal_of_outsideWindow {off : Nat} (h4 : off % 4 = 0) (h : 0x1C < off) :
    portRefusal 4 off = some .outsideWindow := by
  simp [portRefusal, h4, h]

/-- A write the port refuses is refused by the step that would make it. -/
theorem step_of_issues_write_refused {s u : State} {bytes off : Nat} {w : Word} {r : Refusal}
    (h : Issues s (.write bytes off w) u) (hr : portRefusal bytes off = some r) : step s = .refused r := by
  simp [step_of_issues h, driverTurn, portWrite, hr]

/-- A read the port refuses is refused by the step that would make it. -/
theorem step_of_issues_read_refused {s u : State} {bytes off : Nat} {r : Refusal}
    (h : Issues s (.read bytes off) u) (hr : portRefusal bytes off = some r) : step s = .refused r := by
  simp [step_of_issues h, driverTurn, portRead, hr]

/-- Settles O19: the port's own name for such an access reaches the step. -/
theorem accessOutsideWindowIsRefused : Obligations.AccessOutsideWindowIsRefused := fun _ _ _ _ h4 ho =>
  ⟨fun h => step_of_issues_write_refused h (portRefusal_of_outsideWindow h4 ho),
    fun h => step_of_issues_read_refused h (portRefusal_of_outsideWindow h4 ho)⟩

/-- A command presented always answers a next state: the engine never makes the driver wait (20_memory.md R54). -/
theorem exists_exec_eq_next (i : Instr) (s : State) : ∃ t, exec i s = .next t := by
  cases hb : s.busy with
  | true => exact ⟨_, exec_of_busy i hb⟩
  | false => exact ⟨_, exec_of_idle i hb⟩

/-- A write of the port answers a next state, and leaves the driver's program and the schedule alone. -/
theorem exists_writeReg_eq_next (off : Nat) (w : Word) (s : State) :
    ∃ t, writeReg off w s = .next t ∧ t.driver = s.driver ∧ t.sched = s.sched := by
  unfold writeReg
  split_ifs
  · unfold writeCmd
    split
    · rename_i i _
      obtain ⟨t, ht⟩ := exists_exec_eq_next i s
      obtain ⟨-, -, -, -, -, hd, hs, -⟩ := commandFrame i s t ht
      exact ⟨t, ht, hd, hs⟩
    · exact ⟨_, rfl, raiseError_driver _ s, raiseError_sched _ s⟩
  all_goals exact ⟨_, rfl, rfl, rfl⟩

theorem eq_four_of_access {bytes off : Nat} (h : WellFormed.access bytes off = true) : bytes = 4 :=
  (portRefusal_none (portRefusal_of_access h)).1

/-- Settles O18: the port refuses before it looks at the engine, and what it takes always answers a next state. -/
theorem onlyAlignedWordAccessesHaveMeaning : Obligations.OnlyAlignedWordAccessesHaveMeaning := by
  intro s u bytes off w
  refine ⟨fun h hn => step_of_issues_write_refused h (portRefusal_of_not_wordAccess hn),
    fun h hn => step_of_issues_read_refused h (portRefusal_of_not_wordAccess hn), fun h ha => ?_, fun h ha => ?_⟩
  · obtain rfl := eq_four_of_access ha
    rw [step_of_issues_write h ha]
    exact exists_writeReg_eq_next off w u
  · obtain rfl := eq_four_of_access ha
    exact ⟨_, step_of_issues_read h ha, rfl, rfl⟩

end Sys2Proof.Machine
end

section
/-! PROOFS of the encoding family (30_encoding.md): the decoder and its words, acceptance, what an operand's ignored
bits cannot change, completion, and the driver's side. -/

namespace Sys2Proof.Machine

/-! ### The decoder -/

/-- A word is a command exactly if MBZ is zero above that command's opcode (30_encoding.md R80 to R82). -/
theorem decode_eq_command_iff {w : Word} {i : Instr} :
    decode w = .command i ↔ mbzField w = 0#24 ∧ opcField w = opcode i := by
  refine ⟨fields_of_decode, ?_⟩
  rintro ⟨hm, ho⟩
  simp [decode, hm, ho]

/-- A command's own word is decoded as that command (R81, R85). -/
@[simp] theorem decode_encode (i : Instr) : decode (encode i) = .command i :=
  decode_eq_command_iff.mpr ⟨BitVec.extractLsb'_append_eq_left, BitVec.extractLsb'_append_eq_right⟩

/-- Settles O7: a command's own word decodes to it, and the decoder answers it for no other. -/
theorem decodeAgreesWithEncode : Obligations.DecodeAgreesWithEncode := fun _ i =>
  ⟨eq_encode_of_decode, fun h => h ▸ decode_encode i⟩

/-- What R82's ranges leave of the words with MBZ zero are the eight words of R81. -/
theorem exists_eq_encode_of_wellFormed {w : Word} (h : WellFormed.word w = true) : ∃ i, w = encode i := by
  have hw : w.toNat = 1 ∨ w.toNat = 2 ∨ w.toNat = 3 ∨ w.toNat = 4 ∨ w.toNat = 16 ∨ w.toNat = 17 ∨
      w.toNat = 32 ∨ w.toNat = 33 := by
    simp only [WellFormed.word, WellFormed.mbzZero, WellFormed.illegalOpcode, Bool.and_eq_true, Bool.or_eq_true,
      Bool.not_eq_true', Bool.eq_false_iff, ne_eq, beq_iff_eq, decide_eq_true_eq] at h
    omega
  rcases hw with hw | hw | hw | hw | hw | hw | hw | hw
  · exact ⟨.crcInit, BitVec.eq_of_toNat_eq hw⟩
  · exact ⟨.crcFeed, BitVec.eq_of_toNat_eq hw⟩
  · exact ⟨.crcBuf, BitVec.eq_of_toNat_eq hw⟩
  · exact ⟨.tblRead, BitVec.eq_of_toNat_eq hw⟩
  · exact ⟨.put16, BitVec.eq_of_toNat_eq hw⟩
  · exact ⟨.put32, BitVec.eq_of_toNat_eq hw⟩
  · exact ⟨.hdr, BitVec.eq_of_toNat_eq hw⟩
  · exact ⟨.chunk, BitVec.eq_of_toNat_eq hw⟩

/-- Settles O6: the decoder's words are the commands' own, and so are the well-formed ones. -/
theorem decoderAcceptsExactlyLegalWords : Obligations.DecoderAcceptsExactlyLegalWords := by
  intro w
  constructor
  · rintro ⟨i, h⟩
    rw [eq_encode_of_decode h]
    exact wellFormed_encode i
  · intro h
    obtain ⟨i, rfl⟩ := exists_eq_encode_of_wellFormed h
    exact ⟨i, decode_encode i⟩

/-- Settles O8: each of the words, written out, is its command's own. -/
theorem wordsOfTheOpcodeMapDecode : Obligations.WordsOfTheOpcodeMapDecode :=
  ⟨decode_encode .crcInit, decode_encode .crcFeed, decode_encode .crcBuf, decode_encode .tblRead,
    decode_encode .put16, decode_encode .put32, decode_encode .hdr, decode_encode .chunk⟩

/-! ### Acceptance -/

/-- The opcodes of R81, listed, are those of the commands. -/
theorem mem_opcodes_iff {b : Byte} :
    b ∈ [0x01#8, 0x02#8, 0x03#8, 0x04#8, 0x10#8, 0x11#8, 0x20#8, 0x21#8] ↔ ∃ i, opcode i = b := by
  constructor
  · simp only [List.mem_cons, List.not_mem_nil, or_false]
    rintro (h | h | h | h | h | h | h | h)
    · exact ⟨.crcInit, h.symm⟩
    · exact ⟨.crcFeed, h.symm⟩
    · exact ⟨.crcBuf, h.symm⟩
    · exact ⟨.tblRead, h.symm⟩
    · exact ⟨.put16, h.symm⟩
    · exact ⟨.put32, h.symm⟩
    · exact ⟨.hdr, h.symm⟩
    · exact ⟨.chunk, h.symm⟩
  · rintro ⟨i, rfl⟩
    cases i <;> decide

/-- Where the driver writes a word to CMD that is no command, the step raises the error BUSY selects
(60_exceptions.md R202, R203). -/
theorem step_of_issues_illegal {s u : State} {w : Word} {e : DecodeError} (h : Issues s (.write 4 0x00 w) u)
    (hw : decode w = .illegal e) : step s = .next (raiseError (if u.busy then .errBusy else .errOpcode) u) := by
  rw [step_of_issues_write h (by decide)]
  simp [writeReg, writeCmd, hw]

/-- While BUSY is 1 a CMD write of any word raises ERR_BUSY (R95, R202, R204). -/
theorem step_of_issues_cmd_of_busy {s u : State} {w : Word} (h : Issues s (.write 4 0x00 w) u)
    (hb : u.busy = true) : step s = .next (raiseError .errBusy u) := by
  cases hw : decode w with
  | command i => rw [stepRunsDecodedCommand s u w i h hw, exec_of_busy i hb]
  | illegal e => rw [step_of_issues_illegal h hw, hb, if_pos rfl]

/-- Every small step spends a credit, so none is enabled under the environment that has none. -/
theorem engineStep_of_stalled {s : State} (h : s.ready = Readiness.stalled) : engineStep s = none := by
  by_contra hne
  obtain ⟨t, ht⟩ := Option.ne_none_iff_exists'.mp hne
  obtain ⟨f, -, hstep⟩ := engineStep_cases ht
  rw [h] at hstep
  rcases hstep with ⟨_, _, _, _, -, hs, -⟩ | ⟨_, _, -, hs, -⟩ | ⟨_, _, _, _, -, hs, -⟩ | ⟨_, _, _, -, hs, -⟩ |
    ⟨_, _, _, -, hs, -⟩ <;> cases hs

/-- Without a credit the engine stays where the acceptance of a command leaves it (30_encoding.md R95). -/
theorem exec_of_stalled (i : Instr) {s : State} (hb : s.busy = false) (hr : s.ready = Readiness.stalled) :
    exec i s = .next (accept i (startOf i) s) := by
  rw [exec_of_idle i hb, advance_of_stuck (engineStep_of_stalled (s := accept i (startOf i) s) hr)]

/-- Settles O11: BUSY is looked at first, then the two fields of the word; then the command is accepted. -/
theorem acceptanceFollowsTheLifecycle : Obligations.AcceptanceFollowsTheLifecycle := by
  intro s u w h
  refine ⟨step_of_issues_cmd_of_busy h, fun hb hbad => ?_, fun hb hm ho => ?_⟩
  · cases hw : decode w with
    | command i =>
      obtain ⟨hm, ho⟩ := fields_of_decode hw
      exact (hbad.elim (· hm) (· (mem_opcodes_iff.mpr ⟨i, ho.symm⟩))).elim
    | illegal e =>
      rw [step_of_issues_illegal h hw, if_neg (Bool.eq_false_iff.mp hb)]
      rfl
  · obtain ⟨i, hi⟩ := mem_opcodes_iff.mp ho
    have hstep : step s = exec i u := stepRunsDecodedCommand s u w i h (decode_eq_command_iff.mpr ⟨hm, hi.symm⟩)
    refine ⟨i, hi, hstep, fun hr => ⟨startOf i u.acc u.arg0 u.arg1, ?_⟩⟩
    rw [exec_of_stalled i hb hr, ← hi]
    rfl

/-! ### Operand bits a command ignores -/

/-- The command in flight with other operand latches, unless it is one of the two whose latches the engine still looks
at after acceptance, CRC_BUF and CHUNK (20_memory.md R55). -/
def InFlight.relatch (a0 a1 : Word) (f : InFlight) : InFlight :=
  if f.lop = opcode .crcBuf ∨ f.lop = opcode .chunk then f else { f with la0 := a0, la1 := a1 }

/-- `s` with other operands: in ARG0 and ARG1, and in the latches as `InFlight.relatch` says. -/
def State.withOperands (a0 a1 : Word) (s : State) : State :=
  { s with arg0 := a0, arg1 := a1, inflight := s.inflight.map (InFlight.relatch a0 a1) }

@[simp] theorem InFlight.relatch_progress (a0 a1 : Word) (f : InFlight) :
    (f.relatch a0 a1).progress = f.progress := by
  unfold InFlight.relatch
  split <;> rfl

/-- New latches do not get in the way of the progress. -/
theorem InFlight.relatch_mk_progress (a0 a1 : Word) (f : InFlight) (p : Progress) :
    InFlight.relatch a0 a1 { f with progress := p } = { f.relatch a0 a1 with progress := p } := by
  unfold InFlight.relatch
  split <;> rfl

/-- All that the engine takes from the latches, the payload range and what follows the last read, stays. -/
theorem InFlight.relatch_range (a0 a1 : Word) (f : InFlight) :
    (f.relatch a0 a1).count = f.count ∧ (f.relatch a0 a1).base = f.base ∧
      (f.relatch a0 a1).afterRead = f.afterRead := by
  unfold InFlight.relatch
  split
  case isTrue => exact ⟨rfl, rfl, rfl⟩
  case isFalse hno =>
    obtain ⟨lop, la0, la1, p⟩ := f
    unfold InFlight.count InFlight.base InFlight.afterRead
    cases hi : decodeOpcode lop with
    | none => exact ⟨rfl, rfl, rfl⟩
    | some i =>
      obtain rfl := eq_opcode_of_decodeOpcode hi
      cases i
      case crcBuf => exact absurd (.inl rfl) hno
      case chunk => exact absurd (.inr rfl) hno
      all_goals exact ⟨rfl, rfl, rfl⟩

theorem InFlight.relatch_current (a0 a1 : Word) (f : InFlight) : (f.relatch a0 a1).current = f.current := by
  obtain ⟨hcount, -, hafter⟩ := f.relatch_range a0 a1
  simp only [InFlight.current, InFlight.relatch_progress, hcount, hafter]

theorem goOn_withOperands (a0 a1 : Word) (f : InFlight) (p : Progress) (s : State) :
    goOn (f.relatch a0 a1) p (s.withOperands a0 a1) = (goOn f p s).withOperands a0 a1 := by
  simp [goOn, State.withOperands, InFlight.relatch_mk_progress]

theorem readNext_withOperands (a0 a1 : Word) (f : InFlight) (k : Nat) (c : Word) (buf : List Byte) (s : State) :
    readNext (f.relatch a0 a1) k c buf (s.withOperands a0 a1) = (readNext f k c buf s).withOperands a0 a1 := by
  obtain ⟨-, hbase, -⟩ := f.relatch_range a0 a1
  simp only [readNext, hbase, ← goOn_withOperands]
  rfl

/-- A small step is the same with other operands. -/
theorem engineStep_withOperands (a0 a1 : Word) (s : State) :
    engineStep (s.withOperands a0 a1) = (engineStep s).map (State.withOperands a0 a1) := by
  unfold engineStep
  rw [show (s.withOperands a0 a1).inflight = s.inflight.map (InFlight.relatch a0 a1) from rfl]
  cases s.inflight with
  | none => rfl
  | some f =>
    simp only [Option.map_some, InFlight.relatch_current]
    split <;> rw [Option.map_map] <;> refine congrArg (Option.map · _) (funext fun credit => ?_)
    case h_1 => exact readNext_withOperands a0 a1 f _ _ _ (setReady { s.ready with memory := credit } s)
    case h_2 => rfl
    case h_3 => exact goOn_withOperands a0 a1 f _ (emitByte _ (setReady { s.ready with sink := credit } s))
    case h_4 => exact goOn_withOperands a0 a1 f _ (requestFlush (setReady { s.ready with engine := credit } s))
    case h_5 => exact goOn_withOperands a0 a1 f _ (ackFlush (setReady { s.ready with flush := credit } s))

/-- The engine's run is the same with other operands. -/
theorem advance_withOperands (a0 a1 : Word) (s : State) :
    advance (s.withOperands a0 a1) = (advance s).withOperands a0 a1 :=
  advance_comm (State.withOperands a0 a1) (engineStep_withOperands a0 a1) s

/-- What is in flight has got equally far with other operands. -/
theorem progress_withOperands (a0 a1 : Word) (s : State) :
    (s.withOperands a0 a1).inflight.map InFlight.progress = s.inflight.map InFlight.progress := by
  simp [State.withOperands, Function.comp_def]

/-- Different commands have different opcodes (30_encoding.md R81). -/
theorem opcode_injective : Function.Injective opcode := fun i j h => by
  simpa using congrArg decodeOpcode h

/-- Acceptance is the same with other operands from which the command, no reader of payload, starts alike. -/
theorem accept_withOperands {i : Instr} {s : State} {a0 a1 c0 c1 : Word} (hbuf : i ≠ .crcBuf) (hchunk : i ≠ .chunk)
    (hstart : startOf i s.acc a0 a1 = startOf i s.acc c0 c1) :
    accept i (startOf i) { s with arg0 := c0, arg1 := c1 } =
      (accept i (startOf i) { s with arg0 := a0, arg1 := a1 }).withOperands c0 c1 := by
  have hne : ¬ (opcode i = opcode .crcBuf ∨ opcode i = opcode .chunk) :=
    not_or.mpr ⟨opcode_injective.ne hbuf, opcode_injective.ne hchunk⟩
  simp [accept, setBusy, State.withOperands, InFlight.relatch, hne, hstart]

/-- Settles O44: a command turned away looks at no operand; one accepted has no ignored bits, or starts alike and reads
no payload, so its run is the same with the other operands. -/
theorem ignoredOperandBitsChangeNothing : Obligations.IgnoredOperandBitsChangeNothing := by
  intro i s a0 a1 c0 c1 h
  rcases Bool.eq_false_or_eq_true s.busy with hb | hb
  · exact ⟨_, _, exec_of_busy i (s := { s with arg0 := a0, arg1 := a1 }) hb,
      exec_of_busy i (s := { s with arg0 := c0, arg1 := c1 }) hb, rfl, rfl, rfl, rfl, rfl, rfl, rfl, rfl, rfl, rfl⟩
  · refine ⟨_, _, exec_of_idle i (s := { s with arg0 := a0, arg1 := a1 }) hb,
      exec_of_idle i (s := { s with arg0 := c0, arg1 := c1 }) hb, ?_⟩
    have huse : a0 = c0 ∧ a1 = c1 ∨ i ≠ .crcBuf ∧ i ≠ .chunk ∧ startOf i s.acc a0 a1 = startOf i s.acc c0 c1 := by
      cases i
      case crcBuf | chunk | hdr => exact .inl h
      case crcInit => exact .inr ⟨nofun, nofun, rfl⟩
      case crcFeed => exact .inr ⟨nofun, nofun, by simp only [startOf, startCrcFeed, feedByte, h]⟩
      case tblRead => exact .inr ⟨nofun, nofun, by simp only [startOf, startTblRead, tblIndex, h]⟩
      case put16 => exact .inr ⟨nofun, nofun, by simp only [startOf, startPut16, put16Value, h]⟩
      case put32 => exact .inr ⟨nofun, nofun, by simp only [startOf, startPut32, put32Value, h]⟩
    rcases huse with ⟨rfl, rfl⟩ | ⟨hbuf, hchunk, hstart⟩
    · exact ⟨rfl, rfl, rfl, rfl, rfl, rfl, rfl, rfl, rfl, rfl⟩
    · rw [accept_withOperands hbuf hchunk hstart, advance_withOperands]
      exact ⟨rfl, rfl, rfl, rfl, rfl, (progress_withOperands ..).symm, rfl, rfl, rfl, rfl⟩

/-! ### Completion -/

/-- A small step keeps BUSY, RESULT and ACC, or is the completion (30_encoding.md R96). -/
theorem engineStep_results {s t : State} (h : engineStep s = some t) :
    t.busy = false ∨ t.busy = s.busy ∧ t.result = s.result ∧ t.acc = s.acc := by
  obtain ⟨f, -, h⟩ := engineStep_cases h
  rcases h with ⟨k, c, buf, m, -, -, rfl⟩ | ⟨wr, e, -, -, rfl⟩ | ⟨b, todo, wr, k, -, -, rfl⟩ |
    ⟨todo, wr, e, -, -, rfl⟩ | ⟨todo, wr, a, -, -, rfl⟩
  case inr.inl => exact .inl rfl
  all_goals exact .inr ⟨rfl, rfl, rfl⟩

/-- With BUSY still 1 after the engine's run, no completion has written RESULT and ACC. -/
theorem results_advance_of_busy {s : State} (h : (advance s).busy = true) :
    (advance s).result = s.result ∧ (advance s).acc = s.acc := by
  refine advance_induction (fun t => t.busy = true → t.result = s.result ∧ t.acc = s.acc) (fun t u ht hu hb => ?_)
    (fun _ => ⟨rfl, rfl⟩) h
  rcases engineStep_results hu with hidle | ⟨hbusy, hresult, hacc⟩
  · cases hidle.symm.trans hb
  · rw [hresult, hacc]
    exact ht (hbusy.symm.trans hb)

/-- A move after which BUSY is 1 leaves RESULT and ACC alone, whatever it does to the engine. -/
theorem EngineMove.results {s t : State} {x : Turn} (h : EngineMove s x t) (hb : t.busy = true) :
    t.result = s.result ∧ t.acc = s.acc := by
  cases h with
  | aside _ _ e => exact ⟨e.result, e.acc⟩
  | store _ _ _ _ _ e => exact ⟨e.result, e.acc⟩
  | run _ u _ e => exact e.result ▸ e.acc ▸ results_advance_of_busy hb
  | acceptance w i rest _ _ _ => exact results_advance_of_busy hb
  | reset => cases hb

/-- Settles O46: only a completion writes RESULT and ACC, and it clears BUSY; a reset clears it too. -/
theorem resultsAppearOnlyAtCompletion : Obligations.ResultsAppearOnlyAtCompletion := fun _ _ h hb =>
  (step_engineMove h).results hb

/-! ### The driver's side -/

/-- `(hi << 16) | lo` of two 16-bit values is the one above the other (30_encoding.md R93). -/
theorem packArg1_setWidth (hi lo : Half) : packArg1 (hi.setWidth 32) (lo.setWidth 32) = hi ++ lo :=
  BitVec.setWidth_append_eq_shiftLeft_setWidth_or.symm.trans (BitVec.setWidth_eq _)

/-- Settles O50: the fields are the two halves of what is packed. -/
theorem driverPackingMatchesOperandFields : Obligations.DriverPackingMatchesOperandFields := by
  intro hi lo
  rw [packArg1_setWidth]
  exact ⟨BitVec.extractLsb'_append_eq_right, BitVec.extractLsb'_append_eq_left, BitVec.extractLsb'_append_eq_right,
    BitVec.extractLsb'_append_eq_left⟩

/-- A poll that reads BUSY 0 records STATUS and goes on to the rest of the program (30_encoding.md R93). -/
theorem pollStatus_of_idle (rest : List DriverOp) {s : State} (h : s.busy = false) :
    pollStatus rest s = setDriver rest (recordRead (statusWord s) s) :=
  if_neg (Bool.eq_false_iff.mp h)

/-- A poll that reads BUSY 1 records STATUS and lets the engine go on (R93; log entry 19). -/
theorem pollStatus_of_busy (rest : List DriverOp) {s : State} (h : s.busy = true) :
    pollStatus rest s = advance (recordRead (statusWord s) s) :=
  if_pos h

/-- Settles O21: a poll with BUSY 0 takes the driver past it; with BUSY 1 the engine's run leaves the program and
what was read alone. -/
theorem waitPollsUntilIdle : Obligations.WaitPollsUntilIdle := by
  intro s u h
  have hstep : step s = .next (pollStatus u.driver (setDriver (.wait :: u.driver) u)) := step_of_issues h
  rw [hstep]
  refine ⟨fun hb => congrArg _ (pollStatus_of_idle _ hb), fun hb => ⟨_, rfl, ?_⟩⟩
  rw [pollStatus_of_busy (s := setDriver (.wait :: u.driver) u) _ hb]
  obtain ⟨-, -, -, -, -, hdriver, -, hreads⟩ :=
    advance_frame (recordRead (statusWord u) (setDriver (.wait :: u.driver) u))
  exact ⟨hdriver, hreads⟩

end Sys2Proof.Machine
end

section
/-! PROOFS of the checksum family (41_crc.md): the table, the byte step as eight iterations of R100, the fold, and the
four checksum commands. -/

namespace Sys2Proof.Machine

/-! ### The table -/

/-- R110's listing is R100's construction, index 0 first. -/
theorem crcTable_eq_map_tableEntry :
    crcTable = (List.range 256).map fun n => tableEntry (BitVec.ofNat 8 n) := by
  decide +kernel

theorem crcTable_length : crcTable.length = 256 := by
  simp [crcTable_eq_map_tableEntry]

/-- The entry the engine uses is `TableEntry` of its index (10_state.md R32). -/
theorem crcT_eq_tableEntry (n : Byte) : crcT n = tableEntry n := by
  have hn : n.toNat < 256 := n.isLt
  simp [crcT, crcTable_eq_map_tableEntry, List.getD_eq_getElem?_getD, hn]

/-- Settles O22: the listing is the construction, mapped over the 256 indices. -/
theorem tableListsTableEntries : Obligations.TableListsTableEntries :=
  ⟨crcTable_length, crcT_eq_tableEntry⟩

/-- The register after the nine check bytes, before the final XOR (41_crc.md R109). -/
theorem crcFold_checkBytes :
    crcFold 0xFFFFFFFF#32 [0x31#8, 0x32#8, 0x33#8, 0x34#8, 0x35#8, 0x36#8, 0x37#8, 0x38#8, 0x39#8] =
      0x340BC6D9#32 := by
  decide +kernel

/-- Settles O23: the fold of no bytes is the initial value, that of the check bytes is evaluated, and the final XOR
complements both. -/
theorem checksumCheckValues : Obligations.ChecksumCheckValues :=
  ⟨rfl, congrArg (· ^^^ Config.crcFinalXor) crcFold_checkBytes, crcFold_checkBytes⟩

/-! ### One iteration of R100 is linear and one-to-one -/

/-- The polynomial is what an iteration XORs in for the bit it shifts out. -/
def polyIf (bit : Bool) : Word := if bit then Config.crcPoly else 0#32

theorem polyIf_xor (a b : Bool) : polyIf (a ^^ b) = polyIf a ^^^ polyIf b := by
  cases a <;> cases b <;> rfl

theorem getLsbD_polyIf_top (bit : Bool) : (polyIf bit).getLsbD 31 = bit := by
  cases bit <;> rfl

theorem tableIter_eq (c : Word) : tableIter c = c >>> 1 ^^^ polyIf (c.getLsbD 0) := by
  unfold tableIter polyIf
  split
  · rfl
  · exact BitVec.xor_zero.symm

/-- An iteration distributes over XOR, as the shift and the bit it tests do. -/
theorem tableIter_xor (c d : Word) : tableIter (c ^^^ d) = tableIter c ^^^ tableIter d := by
  simp only [tableIter_eq, BitVec.ushiftRight_xor_distrib, BitVec.getLsbD_xor, polyIf_xor]
  ac_rfl

/-- The top bit after an iteration is the bit it shifted out: the polynomial has its top bit set. -/
theorem getLsbD_tableIter_top (c : Word) : (tableIter c).getLsbD 31 = c.getLsbD 0 := by
  rw [tableIter_eq, BitVec.getLsbD_xor, getLsbD_polyIf_top, BitVec.getLsbD_ushiftRight,
    BitVec.getLsbD_of_ge _ _ (by decide), Bool.false_xor]

/-- No iteration takes two words to the same one: the bit shifted out is still seen at the top. -/
theorem tableIter_injective : Function.Injective tableIter := by
  intro c d h
  have hlow : c.getLsbD 0 = d.getLsbD 0 := by
    rw [← getLsbD_tableIter_top, ← getLsbD_tableIter_top, h]
  have hshift : c >>> 1 = d >>> 1 := by
    rw [tableIter_eq, tableIter_eq, hlow] at h
    exact (BitVec.xor_left_inj _).mp h
  refine BitVec.eq_of_getLsbD_eq fun i _ => ?_
  cases i with
  | zero => exact hlow
  | succ i => simpa [Nat.add_comm] using congrArg (BitVec.getLsbD · i) hshift

theorem tableIters_xor (k : Nat) (c d : Word) : tableIters k (c ^^^ d) = tableIters k c ^^^ tableIters k d := by
  induction k generalizing c d with
  | zero => rfl
  | succ k ih => simp only [tableIters, tableIter_xor, ih]

theorem tableIters_injective (k : Nat) : Function.Injective (tableIters k) := by
  induction k with
  | zero => exact Function.injective_id
  | succ k ih => exact ih.comp tableIter_injective

/-- Iterations on a word whose low bits are all 0 only shift it. -/
theorem tableIters_eq_shiftRight {k : Nat} {c : Word} (h : ∀ i < k, c.getLsbD i = false) :
    tableIters k c = c >>> k := by
  induction k generalizing c with
  | zero => exact (BitVec.ushiftRight_zero c).symm
  | succ k ih =>
    have hiter : tableIter c = c >>> 1 := by
      rw [tableIter_eq, h 0 k.succ_pos]
      exact BitVec.xor_zero
    rw [tableIters, hiter, ih, ← BitVec.shiftRight_add, Nat.add_comm]
    intro i hi
    rw [BitVec.getLsbD_ushiftRight]
    exact h (1 + i) (by omega)

/-! ### The byte step -/

/-- A byte has nothing above bit 7. -/
theorem setWidth_byte_ushiftRight (b : Byte) : (b.setWidth 32 : Word) >>> 8 = 0#32 := by
  refine BitVec.eq_of_getLsbD_eq fun i _ => ?_
  simp

/-- The index of R101 is the low byte. -/
theorem setWidth_and_mask (x : Word) : (x &&& 0x000000FF#32).setWidth 8 = x.setWidth 8 := by
  rw [BitVec.setWidth_and]
  exact BitVec.and_allOnes

/-- The byte step of R101 is R100's eight iterations on the register with the byte XORed in: the table entry is what
they make of the low byte, and the bits above it are only shifted. -/
theorem crcStep_eq_tableIters (c : Word) (b : Byte) : crcStep c b = tableIters 8 (c ^^^ b.setWidth 32) := by
  set x := c ^^^ b.setWidth 32 with hx
  set low : Word := (x.setWidth 8 : Byte).setWidth 32 with hlow
  have hzero : ∀ i < 8, (low ^^^ x).getLsbD i = false := fun i hi => by
    simp [hlow, hi, show i < 32 by omega]
  have hshift : (low ^^^ x) >>> 8 = c >>> 8 := by
    simp only [hlow, hx, BitVec.ushiftRight_xor_distrib, setWidth_byte_ushiftRight, BitVec.zero_xor, BitVec.xor_zero]
  calc crcStep c b = tableEntry (x.setWidth 8) ^^^ c >>> 8 := by
        rw [crcStep, crcT_eq_tableEntry, setWidth_and_mask]
    _ = tableIters 8 low ^^^ tableIters 8 (low ^^^ x) := by
        rw [tableIters_eq_shiftRight hzero, hshift, tableEntry]
    _ = tableIters 8 x := by
        rw [← tableIters_xor, ← BitVec.xor_assoc, BitVec.xor_self, BitVec.zero_xor]

theorem crcStep_register_injective (b : Byte) : Function.Injective (crcStep · b) := by
  intro c d h
  simp only [crcStep_eq_tableIters] at h
  exact (BitVec.xor_left_inj _).mp (tableIters_injective 8 h)

theorem crcStep_byte_injective (c : Word) : Function.Injective (crcStep c) := by
  intro b b' h
  simp only [crcStep_eq_tableIters] at h
  have hz : b.setWidth 32 = b'.setWidth 32 := (BitVec.xor_right_inj _).mp (tableIters_injective 8 h)
  simpa using congrArg (BitVec.setWidth 8) hz

/-! ### The fold -/

theorem crcFold_append (c : Word) (xs ys : List Byte) : crcFold c (xs ++ ys) = crcFold (crcFold c xs) ys := by
  induction xs generalizing c with
  | nil => rfl
  | cons x xs ih => exact ih (crcStep c x)

/-- The same bytes folded from two registers end in the same register only if they began in it. -/
theorem crcFold_register_injective (xs : List Byte) : Function.Injective (crcFold · xs) := by
  induction xs with
  | nil => exact Function.injective_id
  | cons x xs ih => exact ih.comp (crcStep_register_injective x)

theorem crc32_eq_iff {xs ys : List Byte} :
    crc32 xs = crc32 ys ↔ crcFold Config.crcInitial xs = crcFold Config.crcInitial ys :=
  BitVec.xor_left_inj _

/-- Settles O25: the registers differ after the changed byte, and equal bytes keep them apart. -/
theorem oneChangedByteChangesChecksum : Obligations.OneChangedByteChangesChecksum := by
  intro xs ys b b' hb h
  rw [crc32_eq_iff, crcFold_append, crcFold_append] at h
  exact hb (crcStep_byte_injective _ (crcFold_register_injective ys h))

/-! ### The checksum commands -/

/-- The completion of a command that has put nothing out since its acceptance (30_encoding.md R96). -/
theorem advance_accept_complete {i : Instr} {start : Word → Word → Word → Progress} {s : State} {m : Credit}
    {p : Progress} {wr : Writes} (hb : s.busy = false) (hp : start s.acc s.arg0 s.arg1 = p)
    (hc : ((jobOf i s).latched p).current = .emitting [] wr) (he : s.ready.engine.covers 1 = true) :
    advance (setReady { s.ready with memory := m } (accept i start s)) =
      { s with
        result := wr.result.getD s.result
        acc := wr.acc.getD s.acc
        inflight := none
        ready := { s.ready with engine := s.ready.engine.less 1, memory := m } } := by
  subst hp
  have hdone := advance_complete wr ((jobOf i s).latched (start s.acc s.arg0 s.arg1))
    (setReady { s.ready with memory := m } (accept i start s)) rfl hc he
  rw [hdone]
  simp [complete, clearBusy, setReady, accept, setBusy, hb]

theorem Readiness.covers_engine_memory {r : Readiness} {n : Needs} (h : r.covers n = true) :
    r.engine.covers n.engine = true ∧ r.memory.covers n.memory = true := by
  simp only [Readiness.covers, Bool.and_eq_true] at h
  exact ⟨h.1.1.1, h.1.1.2⟩

/-- Payload reads and the completion use up credits of the memory and of the engine only. -/
theorem Readiness.less_reads (r : Readiness) (n : Nat) :
    r.less ⟨1, n, 0, 0⟩ = { r with engine := r.engine.less 1, memory := r.memory.less n } := by
  simp [Readiness.less]

/-- A command whose first progress is its completion needs one step of the engine. -/
theorem exec_of_completes_at_once {i : Instr} {s : State} {wr : Writes}
    (hstart : startOf i s.acc s.arg0 s.arg1 = .emitting [] wr) (hb : s.busy = false)
    (hr : s.ready.covers ⟨1, 0, 0, 0⟩ = true) :
    exec i s = .next { s with
      result := wr.result.getD s.result
      acc := wr.acc.getD s.acc
      inflight := none
      ready := s.ready.less ⟨1, 0, 0, 0⟩ } := by
  obtain ⟨he, -⟩ := Readiness.covers_engine_memory hr
  rw [Readiness.less_reads, Credit.less_zero]
  exact (exec_of_idle i hb).trans (congrArg _ (advance_accept_complete (m := s.ready.memory) hb hstart rfl he))

/-- Settles O26: CRC_INIT starts at its completion. -/
theorem crcInitCompletes : Obligations.CrcInitCompletes :=
  ⟨decode_encode .crcInit, fun _ hb hr => exec_of_completes_at_once (i := .crcInit) rfl hb hr⟩

/-- Settles O27: CRC_FEED starts at its completion, with the byte already folded in. -/
theorem crcFeedCompletes : Obligations.CrcFeedCompletes :=
  ⟨decode_encode .crcFeed, fun _ hb hr => exec_of_completes_at_once (i := .crcFeed) rfl hb hr⟩

/-- Settles O29: TBL_READ starts at its completion, which writes no ACC. -/
theorem tblReadCompletes : Obligations.TblReadCompletes := by
  refine ⟨decode_encode .tblRead, fun s hb hr => ?_⟩
  rw [← crcT_eq_tableEntry]
  exact exec_of_completes_at_once (i := .tblRead) rfl hb hr

/-- The whole payload range of a reader is read and folded right after its acceptance, if the memory answers. -/
theorem advance_accept_reads {i : Instr} {s : State} {c : Word}
    (hstart : startOf i s.acc s.arg0 s.arg1 = .reading 0 c [])
    (hm : s.ready.memory.covers (payloadCountOf i s.arg1) = true) :
    advance (accept i (startOf i) s) =
      advance (setReady { s.ready with memory := s.ready.memory.less (payloadCountOf i s.arg1) }
        (accept i (fun _ _ _ => .reading (payloadCountOf i s.arg1)
          (crcFold c ((jobOf i s).payload s (payloadCountOf i s.arg1)))
          ((jobOf i s).payload s (payloadCountOf i s.arg1))) s)) := by
  have hinflight : (accept i (startOf i) s).inflight = some ((jobOf i s).latched (.reading 0 c [])) :=
    congrArg (fun p => some ((jobOf i s).latched p)) hstart
  have hcount : 0 + payloadCountOf i s.arg1 ≤ ((jobOf i s).latched (.reading 0 c [])).count := by
    rw [Job.latched_count, Nat.zero_add]
    exact le_rfl
  rw [advance_read _ 0 c [] ((jobOf i s).latched _) _ hinflight hcount hm, Job.latched_base]
  simp [setReady, accept, setBusy, Job.latched, Job.payload, jobOf]

/-- After the last read of CRC_BUF its completion comes next (41_crc.md R106). -/
theorem current_latched_crcBuf (s : State) (c : Word) (data : List Byte) :
    ((jobOf .crcBuf s).latched (.reading s.arg1.toNat c data)).current = afterReadCrcBuf c :=
  InFlight.current_of_not_lt rfl (lt_irrefl _)

/-- Settles O28: the reading loop folds the whole range into ACC, and the completion follows the last read. -/
theorem crcBufCompletes : Obligations.CrcBufCompletes := by
  refine ⟨decode_encode .crcBuf, fun s hb hr => ?_⟩
  obtain ⟨he, hm⟩ := Readiness.covers_engine_memory hr
  rw [Readiness.less_reads, exec_of_idle .crcBuf hb, advance_accept_reads (i := .crcBuf) rfl hm,
    advance_accept_complete hb rfl (current_latched_crcBuf s _ _) he]
  rfl

/-- An environment that never holds back covers what a command needs, and is still free after it. -/
theorem Readiness.free_covers (n : Needs) : Readiness.free.covers n = true := rfl

theorem Readiness.free_less (n : Needs) : Readiness.free.less n = Readiness.free := rfl

/-- Settles O24: each command completes under a free environment, and the fold of what it adds goes on from ACC. -/
theorem checksumComposes : Obligations.ChecksumComposes := by
  obtain ⟨-, hinit⟩ := crcInitCompletes
  obtain ⟨-, hfeed⟩ := crcFeedCompletes
  obtain ⟨-, hbuf⟩ := crcBufCompletes
  refine ⟨crcFold_append, fun s xs hb hfree => ?_⟩
  have hcovers : ∀ n, s.ready.covers n = true := hfree ▸ Readiness.free_covers
  have hless : ∀ n, s.ready.less n = Readiness.free := hfree ▸ Readiness.free_less
  refine ⟨⟨_, hinit s hb (hcovers _), rfl, rfl, hb, hless _⟩, fun hacc => ?_⟩
  have hfold : ∀ ys, crcFold s.acc ys = crcFold Config.crcInitial (xs ++ ys) := fun ys => by
    rw [crcFold_append, hacc, Config.crcInitial]
  have hresult : ∀ ys, crcFold s.acc ys ^^^ Config.crcFinalXor = crc32 (xs ++ ys) := fun ys =>
    congrArg (· ^^^ Config.crcFinalXor) (hfold ys)
  exact ⟨⟨_, hfeed s hb (hcovers _), hfold [_], hresult [_], hb, hless _⟩,
    ⟨_, hbuf s hb (hcovers _), hfold _, hresult _, hb, hless _⟩⟩

end Sys2Proof.Machine
end

section
/-! PROOFS of the encoder family (42_encoder.md): PUT16 and PUT32 put their bytes out and complete. -/

namespace Sys2Proof.Machine

/-! ### Commands that only put bytes out -/

theorem Readiness.covers_sink {r : Readiness} {n : Needs} (h : r.covers n = true) : r.sink.covers n.sink = true := by
  simp only [Readiness.covers, Bool.and_eq_true] at h
  obtain ⟨⟨-, hsink⟩, -⟩ := h
  exact hsink

/-- Accepted bytes and the completion use up credits of the sink and of the engine only. -/
theorem Readiness.less_emits (r : Readiness) (n : Nat) :
    r.less ⟨1, 0, n, 0⟩ = { r with engine := r.engine.less 1, sink := r.sink.less n } := by
  simp [Readiness.less]

/-- `EmitAll(bs)` with a sink that accepts every byte (00_scope.md R11, 20_memory.md R59). -/
def emitAll (bs : List Byte) (s : State) : State :=
  { s with
    out := s.out ++ byteEvents bs
    ready := { s.ready with sink := s.ready.sink.less bs.length } }

/-- A command whose first progress is to emit puts all its bytes out right after its acceptance, if the sink takes
them (20_memory.md R59). -/
theorem advance_accept_emits {i : Instr} {s : State} {bs : List Byte} {wr : Writes}
    (hstart : startOf i s.acc s.arg0 s.arg1 = .emitting (byteEvents bs) wr)
    (hs : s.ready.sink.covers bs.length = true) :
    advance (accept i (startOf i) s) =
      advance (accept i (fun _ _ _ => .emitting [] wr) (emitAll bs s)) := by
  have hinflight : (accept i (startOf i) s).inflight =
      some ((jobOf i s).latched (.emitting (byteEvents bs ++ []) wr)) := by
    rw [List.append_nil, ← hstart]
    rfl
  exact advance_emit_bytes bs [] wr ((jobOf i s).latched (.emitting [] wr)) _ hinflight hs

/-- A command that puts out bytes and writes nothing leaves all but OUT as it was (30_encoding.md R96). -/
theorem exec_of_emits_only {i : Instr} {s : State} {bs : List Byte}
    (hstart : startOf i s.acc s.arg0 s.arg1 = .emitting (byteEvents bs) ⟨none, none⟩) (hb : s.busy = false)
    (hr : s.ready.covers ⟨1, 0, bs.length, 0⟩ = true) :
    exec i s = .next { s with
      out := s.out ++ byteEvents bs
      inflight := none
      ready := s.ready.less ⟨1, 0, bs.length, 0⟩ } := by
  obtain ⟨he, -⟩ := Readiness.covers_engine_memory hr
  rw [Readiness.less_emits, exec_of_idle i hb, advance_accept_emits hstart (Readiness.covers_sink hr)]
  exact congrArg _ (advance_accept_complete (i := i) (start := fun _ _ _ => .emitting [] ⟨none, none⟩)
    (s := emitAll bs s) (m := s.ready.memory) hb rfl rfl he)

/-! ### The two commands -/

/-- The bytes of PUT16's operand are the two low bytes of the register (30_encoding.md R83, R86). -/
theorem le16_put16Value (la0 : Word) : le16 (put16Value la0) = [la0.extractLsb' 0 8, la0.extractLsb' 8 8] := by
  simp [le16, put16Value]

/-- Settles O30: PUT16 emits the two bytes of ARG0's low half and nothing else. -/
theorem put16Completes : Obligations.Put16Completes := by
  refine ⟨decode_encode .put16, fun s hb hr => ?_⟩
  have hexec := exec_of_emits_only (i := .put16) (bs := le16 (put16Value s.arg0)) rfl hb hr
  rwa [le16_put16Value] at hexec

/-- Settles O31: PUT32 emits the four bytes of ARG0 and nothing else. -/
theorem put32Completes : Obligations.Put32Completes :=
  ⟨decode_encode .put32, fun s hb hr => exec_of_emits_only (i := .put32) (bs := le32 (put32Value s.arg0)) rfl hb hr⟩

end Sys2Proof.Machine
end

section
/-! PROOFS of the framer family (43_framer.md): the two framer commands, how a transfer cuts a frame into chunks, and
the reference driver's run. -/

namespace Sys2Proof.Machine

/-! ### The two commands -/

/-- Settles O32: HDR emits the header packet of its two operands and nothing else. -/
theorem hdrCompletes : Obligations.HdrCompletes :=
  ⟨decode_encode .hdr, fun s hb hr => exec_of_emits_only (i := .hdr)
    (bs := headerBytes (hdrTotalSize s.arg0) (hdrChunkSize s.arg1) (hdrTotalChunks s.arg1)) rfl hb hr⟩

@[simp] theorem chunkBytes_length (ci : Half) (data : List Byte) : (chunkBytes ci data).length = 13 + data.length := by
  simp [chunkBytes]

/-- Credit enough for `a + b` acts is credit for `a`, and for `b` after them. -/
theorem Credit.covers_add {c : Credit} {a b : Nat} (h : c.covers (a + b) = true) :
    c.covers a = true ∧ (c.less a).covers b = true := by
  cases c with
  | unlimited => exact ⟨rfl, rfl⟩
  | upTo m =>
    simp only [Credit.covers, Credit.less, decide_eq_true_eq] at h ⊢
    omega

theorem Credit.less_less (c : Credit) (a b : Nat) : (c.less a).less b = c.less (a + b) := by
  cases c with
  | unlimited => rfl
  | upTo m => simp [Credit.less, Nat.sub_sub]

/-- The payload reads of a command with a memory that answers `n` of them (20_memory.md R55). -/
def readAll (n : Nat) (s : State) : State := setReady { s.ready with memory := s.ready.memory.less n } s

/-- `Flush()` with an engine that requests it and a sink that acknowledges it (20_memory.md R61). -/
def flushAll (s : State) : State :=
  { s with
    out := s.out ++ [.flush]
    sentLen := (s.out ++ [OutEvent.flush]).length
    ready := { s.ready with engine := s.ready.engine.less 1, flush := s.ready.flush.less 1 } }

/-- The bytes a command has come to emit after its last payload read go out, if the sink takes them (43_framer.md
R151). -/
theorem advance_accept_packet {i : Instr} {s : State} {p : Progress} {bs : List Byte} {rest : List OutEvent}
    {wr : Writes} (hc : ((jobOf i s).latched p).current = .emitting (byteEvents bs ++ rest) wr)
    (hs : s.ready.sink.covers bs.length = true) (hbs : bs ≠ []) :
    advance (accept i (fun _ _ _ => p) s) = advance (accept i (fun _ _ _ => .emitting rest wr) (emitAll bs s)) := by
  obtain ⟨b, bs, rfl⟩ := List.exists_cons_of_ne_nil hbs
  exact advance_emit_current b bs rest wr ((jobOf i s).latched p) _ rfl hc hs

/-- A flush a command has come to is requested and acknowledged (43_framer.md R153). -/
theorem advance_accept_flush {i : Instr} {s : State} {rest : List OutEvent} {wr : Writes}
    (he : s.ready.engine.covers 1 = true) (hf : s.ready.flush.covers 1 = true) :
    advance (accept i (fun _ _ _ => .emitting (.flush :: rest) wr) s) =
      advance (accept i (fun _ _ _ => .emitting rest wr) (flushAll s)) :=
  advance_flush rest wr ((jobOf i s).latched (.emitting (.flush :: rest) wr)) _ rfl he hf

theorem Readiness.covers_flush {r : Readiness} {n : Needs} (h : r.covers n = true) : r.flush.covers n.flush = true := by
  simp only [Readiness.covers, Bool.and_eq_true] at h
  exact h.2

section Chunk

variable {s : State} {n : Nat} {data : List Byte}

/-- After the last read of CHUNK its packet and the flush are to be put out (43_framer.md R151 to R153). -/
theorem current_latched_chunk (hn : n = (chunkLen s.arg1).toNat) (hdata : data = s.pmem.bytes s.arg0 n) :
    ((jobOf .chunk s).latched (.reading n (crcFold Config.crcInitial data) data)).current =
      .emitting (byteEvents (chunkBytes (chunkIndex s.arg1) data) ++ [.flush]) ⟨some (crc32 data), none⟩ := by
  subst hn hdata
  exact (InFlight.current_of_not_lt rfl (lt_irrefl _)).trans
    (Job.Folds.afterRead (j := jobOf .chunk s) (s := s) (.inr ⟨rfl, rfl⟩) rfl)

/-- With an environment that answers as often as CHUNK needs, the engine's run reads the payload, puts the packet out,
flushes and completes (43_framer.md R151 to R153). -/
theorem advance_accept_chunk (hn : n = (chunkLen s.arg1).toNat) (hdata : data = s.pmem.bytes s.arg0 n)
    (hb : s.busy = false) (hr : s.ready.covers ⟨2, n, 13 + n, 1⟩ = true) :
    advance (accept .chunk (startOf .chunk) s) =
      { flushAll (emitAll (chunkBytes (chunkIndex s.arg1) data) (readAll n s)) with
        result := crc32 data
        inflight := none
        ready := s.ready.less ⟨2, n, 13 + n, 1⟩ } := by
  obtain ⟨hengine, hmem⟩ := Readiness.covers_engine_memory hr
  obtain ⟨hrequest, hcomplete⟩ := Credit.covers_add (a := 1) (b := 1) hengine
  have hlen : (chunkBytes (chunkIndex s.arg1) data).length = 13 + n := by simp [hdata]
  calc advance (accept .chunk (startOf .chunk) s)
      = advance (accept .chunk (fun _ _ _ => .reading n (crcFold Config.crcInitial data) data) (readAll n s)) := by
        subst hn hdata
        exact advance_accept_reads (i := .chunk) rfl hmem
    _ = advance (accept .chunk (fun _ _ _ => .emitting [.flush] ⟨some (crc32 data), none⟩)
          (emitAll (chunkBytes (chunkIndex s.arg1) data) (readAll n s))) :=
        advance_accept_packet (s := readAll n s) (current_latched_chunk hn hdata)
          (hlen ▸ Readiness.covers_sink hr) (List.ne_nil_of_length_pos (by omega))
    _ = advance (accept .chunk (fun _ _ _ => .emitting [] ⟨some (crc32 data), none⟩)
          (flushAll (emitAll (chunkBytes (chunkIndex s.arg1) data) (readAll n s)))) :=
        advance_accept_flush hrequest (Readiness.covers_flush hr)
    _ = { flushAll (emitAll (chunkBytes (chunkIndex s.arg1) data) (readAll n s)) with
          result := crc32 data
          inflight := none
          ready := ⟨(s.ready.engine.less 1).less 1, s.ready.memory.less n,
            s.ready.sink.less (chunkBytes (chunkIndex s.arg1) data).length, s.ready.flush.less 1⟩ } :=
        advance_accept_complete (i := .chunk) (start := fun _ _ _ => .emitting [] ⟨some (crc32 data), none⟩)
          (s := flushAll (emitAll (chunkBytes (chunkIndex s.arg1) data) (readAll n s))) hb rfl rfl hcomplete
    _ = _ := by rw [Credit.less_less, hlen, Readiness.less]

end Chunk

/-- The packet of a chunk, field by field, when `len` is the length of its payload (30_encoding.md R89). -/
theorem chunkBytes_eq {ci len : Half} {data : List Byte} (h : data.length = len.toNat) :
    chunkBytes ci data =
      le32 Config.magic ++ [0x02#8] ++ le16 ci ++ le16 len ++ le32 (crc32 data) ++ data := by
  rw [chunkBytes, h, BitVec.ofNat_toNat, BitVec.setWidth_eq]
  rfl

/-- Settles O33: the reading loop, the packet, the flush and the completion; the packet carries its payload's length. -/
theorem chunkCompletes : Obligations.ChunkCompletes := by
  refine ⟨decode_encode .chunk, fun s n data hn hdata hb hr => ?_⟩
  have hlen : data.length = n := by simp [hdata]
  rw [exec_of_idle .chunk hb, advance_accept_chunk hn hdata hb hr, ← chunkBytes_eq (hlen.trans hn)]
  simp [flushAll, emitAll, readAll, setReady, hlen, chunkIndex, byteEvents, Nat.add_assoc]

/-! ### The chunks of a frame -/

/-- The chunk count is the least number of full chunks that hold the frame (43_framer.md R155). -/
theorem chunkCount_le_iff {size : Nat} (hs : 1 ≤ size) (len k : Nat) :
    chunkCount len size ≤ k ↔ len ≤ chunkOffset size k := by
  rw [chunkOffset, Nat.mul_comm]
  exact ceilDiv_le_iff_le_mul hs

theorem lt_chunkCount_iff {size : Nat} (hs : 1 ≤ size) (len k : Nat) :
    k < chunkCount len size ↔ chunkOffset size k < len := by
  simpa only [not_le] using not_congr (chunkCount_le_iff hs len k)

/-- `q` full chunks are `q` chunks. -/
theorem chunkCount_mul {size : Nat} (hs : 1 ≤ size) (q : Nat) : chunkCount (q * size) size = q :=
  eq_of_forall_ge_iff fun k => (chunkCount_le_iff hs _ k).trans (Nat.mul_le_mul_right_iff hs)

@[simp] theorem chunkOffset_zero (size : Nat) : chunkOffset size 0 = 0 := Nat.zero_mul size

theorem chunkOffset_succ (size k : Nat) : chunkOffset size (k + 1) = chunkOffset size k + size := Nat.succ_mul k size

theorem chunkPayloadLen_le (len size k : Nat) : chunkPayloadLen len size k ≤ size := Nat.min_le_left _ _

/-- A chunk is full exactly if the frame goes on to its end. -/
theorem chunkPayloadLen_eq_size {len size k : Nat} (h : chunkOffset size (k + 1) ≤ len) :
    chunkPayloadLen len size k = size := by
  rw [chunkOffset_succ] at h
  exact Nat.min_eq_left (by omega)

theorem chunkPayloadLen_pos {len size k : Nat} (hs : 1 ≤ size) (hk : k < chunkCount len size) :
    1 ≤ chunkPayloadLen len size k := by
  have := (lt_chunkCount_iff hs len k).mp hk
  exact Nat.le_min.mpr ⟨hs, by omega⟩

/-- The first `k` chunks hold `k` full chunks' bytes, or the whole frame if it is shorter. -/
theorem sum_chunkPayloadLen (len size k : Nat) :
    ((List.range k).map (chunkPayloadLen len size)).sum = min (chunkOffset size k) len := by
  induction k with
  | zero => simp
  | succ k ih =>
    rw [List.range_succ, List.map_append, List.sum_append, ih, chunkOffset_succ, List.map_singleton,
      List.sum_singleton, chunkPayloadLen]
    omega

/-- The payloads of the first `k` chunks joined are the frame's first bytes. -/
theorem flatMap_chunkData (m : Memory) (base : Word) (len size k : Nat) :
    (List.range k).flatMap (chunkData m base len size) = m.bytes base (min (chunkOffset size k) len) := by
  induction k with
  | zero => simp
  | succ k ih =>
    rw [List.range_succ, List.flatMap_append, ih, List.flatMap_singleton, chunkOffset_succ, chunkData, chunkPayloadLen]
    rcases le_total (chunkOffset size k) len with hle | hle
    · rw [Nat.min_eq_left hle, ← Memory.bytes_add]
      congr 1
      omega
    · rw [show min size (len - chunkOffset size k) = 0 by omega, Memory.bytes_zero, List.append_nil]
      congr 1
      omega

theorem min_chunkOffset_chunkCount {size : Nat} (hs : 1 ≤ size) (len : Nat) :
    min (chunkOffset size (chunkCount len size)) len = len :=
  Nat.min_eq_right ((chunkCount_le_iff hs len _).mp le_rfl)

/-- Settles O53: every chunk begins inside the frame, and the first `k` of them hold its first `k * C` bytes. -/
theorem chunksPartitionTheFrame : Obligations.ChunksPartitionTheFrame := by
  intro m base len size hs _ _
  have hin : ∀ i, i < chunkCount len size ↔ chunkOffset size i < len := lt_chunkCount_iff hs len
  refine ⟨fun i hi => chunkPayloadLen_eq_size ((hin _).mp hi).le, fun hpos => ?_, ?_, ?_, ?_, fun hdiv => ?_⟩
  · exact ⟨chunkPayloadLen_pos hs (Nat.sub_one_lt_of_lt hpos), chunkPayloadLen_le _ _ _⟩
  · rw [sum_chunkPayloadLen, min_chunkOffset_chunkCount hs]
  · rw [flatMap_chunkData, min_chunkOffset_chunkCount hs]
  · rintro rfl
    exact Nat.le_zero.mp ((chunkCount_le_iff hs 0 0).mpr (Nat.zero_le _))
  · obtain ⟨q, rfl⟩ := exists_eq_mul_left_of_dvd (Nat.dvd_of_mod_eq_zero hdiv)
    rw [Nat.mul_div_cancel q hs, chunkCount_mul hs]
    exact ⟨rfl, fun i hi => chunkPayloadLen_eq_size (Nat.mul_le_mul_right size hi)⟩

/-- Settles O52: within R159's requirement the count of chunks alone decides. -/
theorem referenceDriverRefusesOnlyLongFrames : Obligations.ReferenceDriverRefusesOnlyLongFrames := by
  intro base len size h1 h2 h3
  rw [transfer, Option.isSome_ite]
  exact ⟨fun ⟨_, _, _, hcount⟩ => hcount, fun hcount => ⟨h1, h2, h3, hcount⟩⟩

/-! ### The length of a transfer -/

/-- `EmitAll` puts out one `Byte` event a byte and no `Flush` (00_scope.md R11). -/
theorem countP_byte_byteEvents (xs : List Byte) : (byteEvents xs).countP (· ≠ .flush) = xs.length := by
  simp [byteEvents, List.countP_map, Function.comp_def]

theorem countP_flush_byteEvents (xs : List Byte) : (byteEvents xs).countP (· = .flush) = 0 := by
  simp [byteEvents, List.countP_map, Function.comp_def]

@[simp] theorem headerBytes_length (ts : Word) (cs tc : Half) : (headerBytes ts cs tc).length = 13 := rfl

@[simp] theorem chunkData_length (m : Memory) (base : Word) (len size i : Nat) :
    (chunkData m base len size i).length = chunkPayloadLen len size i := Memory.bytes_length _ _ _

/-- A chunk puts out 13 bytes and its payload (43_framer.md R161). -/
theorem countP_byte_chunkEvents (m : Memory) (base : Word) (len size i : Nat) :
    (chunkEvents m base len size i).countP (· ≠ .flush) = 13 + chunkPayloadLen len size i := by
  rw [chunkEvents, List.countP_append, countP_byte_byteEvents]
  simp

theorem countP_flush_chunkEvents (m : Memory) (base : Word) (len size i : Nat) :
    (chunkEvents m base len size i).countP (· = .flush) = 1 := by
  rw [chunkEvents, List.countP_append, countP_flush_byteEvents]
  rfl

/-- Settles O55: count the header and each chunk; the payload lengths add up to the frame's. -/
theorem transferLength : Obligations.TransferLength := by
  intro m base len size h1 h2 h3
  obtain ⟨-, -, hsum, -⟩ := chunksPartitionTheFrame m base len size h1 h2 h3
  simp only [transferEvents, List.countP_append, List.countP_flatMap, Function.comp_def, countP_byte_byteEvents,
    countP_flush_byteEvents, countP_byte_chunkEvents, countP_flush_chunkEvents]
  constructor
  · simp [hsum]
    omega
  · simp

/-! ### Runs -/

/-- A run is cut after any number of its steps. -/
theorem run_add (j k : Nat) {s t : State} (h : runsTo j s t) :
    Sys2Proof.core.run (j + k) s = Sys2Proof.core.run k t := by
  induction j generalizing s with
  | zero =>
    cases h
    rw [Nat.zero_add]
  | succ j ih =>
    rw [Nat.succ_add]
    simp only [runsTo, Host.Core.run] at h ⊢
    split at h
    · exact ih h
    · cases h
    · cases h

theorem Reaches.trans {s t u : State} (h : Reaches s t) (h' : Reaches t u) : Reaches s u := by
  obtain ⟨j, hj⟩ := h
  obtain ⟨k, hk⟩ := h'
  exact ⟨j + k, (run_add j k hj).trans hk⟩

theorem Reaches.refl (s : State) : Reaches s s := ⟨0, rfl⟩

theorem Reaches.of_step {s t : State} (h : step s = .next t) : Reaches s t :=
  ⟨1, by simp [runsTo, Host.Core.run, show Sys2Proof.core.step s = .next t from h]⟩

/-! ### A command under a free environment -/

theorem setReady_self {s : State} {r : Readiness} (h : s.ready = r) : setReady r s = s := by
  subst h
  rfl

/-- An environment that never holds back stays that way. -/
theorem engineStep_ready_free {s t : State} (hs : s.ready = Readiness.free) (h : engineStep s = some t) :
    t.ready = Readiness.free := by
  have h' := engineStep_setReady_free h
  rw [setReady_self hs, h] at h'
  exact congrArg State.ready (Option.some.inj h')

/-- Under it the engine stops only with no command in flight (70_reset_and_hazards.md R240). -/
theorem inflight_eq_none_of_stuck {s : State} (hs : s.ready = Readiness.free) (h : engineStep s = none) :
    s.inflight = none := by
  unfold engineStep at h
  split at h
  · assumption
  · split at h <;> simp [hs, Readiness.free, Credit.spend] at h

/-- A command accepted under a free environment completes in the engine's run (R240), and the environment is free
after it. -/
theorem accept_completes {i : Instr} {s : State} (hs : s.ready = Readiness.free) :
    (jobOf i s).Completed s (advance (accept i (startOf i) s)) ∧
      (advance (accept i (startOf i) s)).ready = Readiness.free := by
  have hfree : (advance (accept i (startOf i) s)).ready = Readiness.free :=
    advance_induction (fun t => t.ready = Readiness.free) (fun _ _ => engineStep_ready_free) hs
  refine ⟨(accept_underWay i s).after_advance.resolve_left fun hu => ?_, hfree⟩
  obtain ⟨p, hp, -⟩ := hu.inflight
  cases hp.symm.trans (inflight_eq_none_of_stuck hfree (engineStep_advance _))

/-! ### The reference driver's run -/

/-- The block is idle, the environment never holds back, and the driver, with `ops` still to do, moves next. -/
structure AtRest (s : State) (ops : List DriverOp) : Prop where
  busy : s.busy = false
  ready : s.ready = Readiness.free
  sched : s.sched = []
  driver : s.driver = ops

theorem AtRest.issues {s : State} {op : DriverOp} {rest : List DriverOp} (h : AtRest s (op :: rest)) :
    Issues s op (setDriver rest s) :=
  ⟨h.driver, .inr ⟨h.sched, h.sched⟩, rfl⟩

/-- A register write of the driver is made in one step (30_encoding.md R92). -/
theorem AtRest.step_write {s : State} {r : Reg} {w : Word} {rest : List DriverOp} (h : AtRest s (wr r w :: rest)) :
    step s = writeReg r.offset w (setDriver rest s) :=
  step_of_issues_write h.issues r.access_offset

/-- The driver's accesses that issue command `i` on two operands, as `HEADER` and `SEND` make them (R93). -/
def issueOn (i : Instr) (a b : Word) : List DriverOp := [wr .arg0 a, wr .arg1 b, issue i, .wait]

/-- Two operand writes, the command word and one poll run the command to its completion. -/
theorem AtRest.reaches_issueOn {s : State} {i : Instr} {a b : Word} {rest : List DriverOp}
    (h : AtRest s (issueOn i a b ++ rest)) :
    ∃ t, Reaches s t ∧ AtRest t rest ∧ t.out = s.out ++ commandEvents i s.pmem a b ∧ t.pmem = s.pmem ∧
      t.acc = (commandWrites i s.pmem s.acc a b).acc.getD s.acc := by
  set s1 := setArg0 a (setDriver (wr .arg1 b :: issue i :: .wait :: rest) s)
  have h1 : AtRest s1 (wr .arg1 b :: issue i :: .wait :: rest) := ⟨h.busy, h.ready, h.sched, rfl⟩
  set s2 := setArg1 b (setDriver (issue i :: .wait :: rest) s1)
  have h2 : AtRest s2 (issue i :: .wait :: rest) := ⟨h.busy, h.ready, h.sched, rfl⟩
  set s3 := setDriver (.wait :: rest) s2
  have hexec : step s2 = .next (advance (accept i (startOf i) s3)) :=
    (stepRunsDecodedCommand _ _ _ i h2.issues (decode_encode i)).trans (exec_of_idle i h.busy)
  obtain ⟨hdone, hfree⟩ := accept_completes (i := i) (s := s3) h.ready
  obtain ⟨-, -, -, -, hpmem, hdriver, hsched, -⟩ := advance_frame (accept i (startOf i) s3)
  set s4 := advance (accept i (startOf i) s3)
  have h4 : AtRest s4 (.wait :: rest) := ⟨hdone.busy, hfree, hsched.trans h.sched, hdriver⟩
  obtain ⟨hwait, -⟩ := waitPollsUntilIdle s4 _ h4.issues
  have hreach := (Reaches.of_step h.step_write).trans ((Reaches.of_step h1.step_write).trans
    ((Reaches.of_step hexec).trans (Reaches.of_step (hwait hdone.busy))))
  exact ⟨_, hreach, ⟨hdone.busy, hfree, h4.sched, rfl⟩, hdone.out, hpmem, hdone.acc⟩

/-- The driver's packing of two numbers of 16 bits is that of the 16-bit fields. -/
theorem packArg1_ofNat {hi lo : Nat} (hhi : hi ≤ 65535) (hlo : lo ≤ 65535) :
    packArg1 (BitVec.ofNat 32 hi) (BitVec.ofNat 32 lo) =
      packArg1 ((BitVec.ofNat 16 hi).setWidth 32) ((BitVec.ofNat 16 lo).setWidth 32) := by
  rw [BitVec.setWidth_ofNat_of_le_of_lt (by decide) (by omega),
    BitVec.setWidth_ofNat_of_le_of_lt (by decide) (by omega)]

/-- What `HEADER` issues for a transfer is the header packet of the frame (43_framer.md R159). -/
theorem commandEvents_header (m : Memory) (len : Nat) {size count : Nat} (hsize : size ≤ 65535)
    (hcount : count ≤ 65535) :
    commandEvents .hdr m (BitVec.ofNat 32 len) (packArg1 (BitVec.ofNat 32 count) (BitVec.ofNat 32 size)) =
      byteEvents (headerBytes (BitVec.ofNat 32 len) (BitVec.ofNat 16 size) (BitVec.ofNat 16 count)) := by
  obtain ⟨hcs, htc, -, -⟩ := driverPackingMatchesOperandFields (BitVec.ofNat 16 count) (BitVec.ofNat 16 size)
  rw [commandEvents, packArg1_ofNat hcount hsize, hcs, htc, hdrTotalSize]

/-- What `SEND` issues for chunk `i` is its packet and one flush (43_framer.md R159). -/
theorem commandEvents_send (m : Memory) (base : Word) (len : Nat) {size i : Nat} (hsize : size ≤ 65535)
    (hi : i ≤ 65535) :
    commandEvents .chunk m (base + BitVec.ofNat 32 (chunkOffset size i))
      (packArg1 (BitVec.ofNat 32 (chunkPayloadLen len size i)) (BitVec.ofNat 32 i)) = chunkEvents m base len size i := by
  have hlen : chunkPayloadLen len size i ≤ 65535 := (chunkPayloadLen_le _ _ _).trans hsize
  obtain ⟨-, -, hci, hcl⟩ :=
    driverPackingMatchesOperandFields (BitVec.ofNat 16 (chunkPayloadLen len size i)) (BitVec.ofNat 16 i)
  rw [commandEvents, packArg1_ofNat hlen hi, hci, hcl, chunkAddr, BitVec.toNat_ofNat, Nat.mod_eq_of_lt (by omega),
    chunkEvents, chunkData]

/-- The driver's accesses for the chunks `is` put out those chunks' packets, each with its flush, in their order. -/
theorem AtRest.reaches_sendChunks {base : Word} {len size : Nat} {rest : List DriverOp} {is : List Nat} {s : State}
    (hsize : size ≤ 65535) (his : ∀ i ∈ is, i ≤ 65535)
    (h : AtRest s (is.flatMap (sendChunk base len size) ++ rest)) :
    ∃ t, Reaches s t ∧ AtRest t rest ∧ t.out = s.out ++ is.flatMap (chunkEvents s.pmem base len size) ∧
      t.pmem = s.pmem ∧ t.acc = s.acc := by
  induction is generalizing s with
  | nil => exact ⟨s, .refl s, h, (List.append_nil _).symm, rfl, rfl⟩
  | cons i is ih =>
    obtain ⟨hi, his⟩ := List.forall_mem_cons.mp his
    obtain ⟨t, hst, ht, hout, hpmem, hacc⟩ := AtRest.reaches_issueOn (i := .chunk)
      (rest := is.flatMap (sendChunk base len size) ++ rest) h
    obtain ⟨u, htu, hu, hout', hpmem', hacc'⟩ := ih his ht
    refine ⟨u, hst.trans htu, hu, ?_, hpmem'.trans hpmem, hacc'.trans hacc⟩
    rw [hout', hout, hpmem, commandEvents_send _ _ _ hsize hi, List.flatMap_cons, List.append_assoc]

/-- A sequence the reference driver issues is the header's and then each chunk's, within R159's limits. -/
theorem transfer_eq_some {base : Word} {len size : Nat} {ops : List DriverOp} (h : transfer base len size = some ops) :
    size ≤ 65535 ∧ chunkCount len size ≤ 65535 ∧
      ops = header (BitVec.ofNat 32 len) (BitVec.ofNat 32 size) (BitVec.ofNat 32 (chunkCount len size)) ++
        (List.range (chunkCount len size)).flatMap (sendChunk base len size) := by
  obtain ⟨⟨-, hsize, -, hcount⟩, hops⟩ := Option.ite_none_right_eq_some.mp h
  exact ⟨hsize, hcount, (Option.some.inj hops).symm⟩

/-- Settles O54: HEADER's command and then each chunk's complete, one after the other, and none of them writes ACC. -/
theorem transferPutsOutTheFrame : Obligations.TransferPutsOutTheFrame := by
  intro s base len size ops rest hops hbusy _ hready hsched hdriver
  obtain ⟨hsize, hcount, rfl⟩ := transfer_eq_some hops
  rw [List.append_assoc] at hdriver
  obtain ⟨t, hst, ht, hout, hpmem, hacc⟩ :=
    AtRest.reaches_issueOn (i := .hdr) ⟨hbusy, hready, hsched, hdriver⟩
  have hindex : ∀ i ∈ List.range (chunkCount len size), i ≤ 65535 := fun i hi =>
    (List.mem_range.mp hi).le.trans hcount
  obtain ⟨u, htu, hu, hout', hpmem', hacc'⟩ := ht.reaches_sendChunks hsize hindex
  refine ⟨u, hst.trans htu, hu.driver, hu.busy, ?_, hpmem'.trans hpmem, hacc'.trans hacc⟩
  rw [hout', hout, hpmem, commandEvents_header _ _ hsize hcount, transferEvents, List.append_assoc]

end Sys2Proof.Machine
end

section
/-! PROOFS of the exceptions family (60_exceptions.md): what raises an error bit, what clears it, and what an error
leaves alone. -/

namespace Sys2Proof.Machine

/-! ### An error and the command in flight (60_exceptions.md R202, R205) -/

@[simp] theorem raiseError_inflight (c : ErrorCause) (s : State) : (raiseError c s).inflight = s.inflight := by
  cases c <;> rfl

@[simp] theorem raiseError_ready (c : ErrorCause) (s : State) : (raiseError c s).ready = s.ready := by
  cases c <;> rfl

/-- No small step looks at an error bit, so raising one before the step or after it is the same. -/
theorem engineStep_raiseError (c : ErrorCause) (s : State) :
    engineStep (raiseError c s) = (engineStep s).map (raiseError c) := by
  unfold engineStep
  rw [raiseError_inflight, raiseError_ready]
  cases s.inflight with
  | none => rfl
  | some f =>
    dsimp only
    split <;> rw [Option.map_map] <;> cases c <;> rfl

/-- The engine's run is the same with an error bit raised. -/
theorem advance_raiseError (c : ErrorCause) (s : State) : advance (raiseError c s) = raiseError c (advance s) :=
  advance_comm (raiseError c) (engineStep_raiseError c) s

/-- Settles O13: the word raises ERR_BUSY whatever it is, and the engine's run does not see the bit. -/
theorem cmdWriteWhileBusySetsErrBusyOnly : Obligations.CmdWriteWhileBusySetsErrBusyOnly := fun _ u _ h hb =>
  ⟨step_of_issues_cmd_of_busy h hb, fun r => advance_raiseError .errBusy (setReady r u)⟩

/-! ### An illegal word (60_exceptions.md R203) -/

/-- The decoder names a reason exactly for the words R82 calls illegal. -/
theorem exists_decode_eq_illegal_iff {w : Word} : (∃ e, decode w = .illegal e) ↔ WellFormed.word w = false := by
  rw [← Bool.not_eq_true, ← decoderAcceptsExactlyLegalWords w]
  cases decode w <;> simp

/-- Settles O12: the decoder rejects the word, and with BUSY 0 the error it raises is ERR_OPCODE. -/
theorem illegalWordSetsErrOpcodeOnly : Obligations.IllegalWordSetsErrOpcodeOnly := by
  intro s u w h hb hw
  obtain ⟨e, he⟩ := exists_decode_eq_illegal_iff.mpr hw
  rw [step_of_issues_illegal h he, if_neg (Bool.eq_false_iff.mp hb)]
  rfl

/-! ### What a step does to the error bits -/

/-- The moves of one turn from `s`, told apart by what they do to the error bits. -/
inductive ErrorMove (s : State) : Turn → State → Prop where
  | kept (x : Turn) (t : State) : t.errOpcode = s.errOpcode → t.errBusy = s.errBusy → ErrorMove s x t
  | illegalWord (w : Word) (rest : List DriverOp) : s.driver = .write 4 0x00 w :: rest → s.busy = false →
      WellFormed.word w = false → ErrorMove s .driver (raiseError .errOpcode (setDriver rest s))
  | busyWord (w : Word) (rest : List DriverOp) : s.driver = .write 4 0x00 w :: rest → s.busy = true →
      ErrorMove s .driver (raiseError .errBusy (setDriver rest s))
  | statusWrite (w : Word) (rest : List DriverOp) : s.driver = .write 4 0x04 w :: rest →
      ErrorMove s .driver (writeStatus w (setDriver rest s))
  | reset : ErrorMove s .reset (resetBlock s)

/-- The engine's run from a state with the error bits of `s` keeps them: completion clears none (R207). -/
theorem ErrorMove.of_advance {s u : State} (x : Turn) (ho : u.errOpcode = s.errOpcode) (hb : u.errBusy = s.errBusy) :
    ErrorMove s x (advance u) := by
  obtain ⟨ho', hb', -⟩ := advance_frame u
  exact .kept x _ (ho'.trans ho) (hb'.trans hb)

/-- An operation of the driver does something to the error bits only if it writes CMD or STATUS. -/
theorem Made.errorMove {s t : State} {op : DriverOp} {rest : List DriverOp} (hd : s.driver = op :: rest)
    (h : Made (setDriver rest s) op t) : ErrorMove s .driver t := by
  cases h with
  | command w i _ _ ht =>
    rcases exec_next_cases ht with ⟨hb, rfl⟩ | ⟨-, rfl⟩
    · exact .busyWord w rest hd hb
    · exact .of_advance _ rfl rfl
  | illegalWord w e hw =>
    split
    case isTrue hb => exact .busyWord w rest hd hb
    case isFalse hb =>
      exact .illegalWord w rest hd (Bool.eq_false_iff.mpr hb) (exists_decode_eq_illegal_iff.mp ⟨e, hw⟩)
  | writeStatus w => exact .statusWrite w rest hd
  | _ => exact .kept _ _ rfl rfl

theorem Moved.errorMove {s t : State} {x : Turn} (h : Moved s x t) : ErrorMove s x t := by
  cases h with
  | idle _ => exact .of_advance _ rfl rfl
  | made op rest _ hd hm => exact hm.errorMove hd
  | poll rest _ =>
    unfold pollStatus
    split
    · exact .of_advance _ rfl rfl
    · exact .kept _ _ rfl rfl
  | env r => exact .of_advance _ rfl rfl
  | store a b _ => exact .kept _ _ rfl rfl
  | reset => exact .reset

theorem step_errorMove {s t : State} (h : step s = .next t) :
    ErrorMove (setSched s.sched.tail s) (s.sched.headD .driver) t :=
  (step_moved h).errorMove

/-- A move that raises an error bit is a write of CMD, and raises the bit that BUSY selects (R200 to R204). -/
theorem ErrorMove.cmdWrite_of_rises {s t : State} {x : Turn} (h : ErrorMove s x t)
    (hrise : s.errOpcode = false ∧ t.errOpcode = true ∨ s.errBusy = false ∧ t.errBusy = true) :
    x = .driver ∧ ∃ w rest, s.driver = .write 4 0x00 w :: rest ∧
      (s.errBusy = false ∧ t.errBusy = true → s.busy = true ∧ t.errOpcode = s.errOpcode) ∧
      (s.errOpcode = false ∧ t.errOpcode = true →
        s.busy = false ∧ WellFormed.word w = false ∧ t.errBusy = s.errBusy) := by
  cases h with
  | illegalWord w rest hd hb hw => exact ⟨rfl, w, rest, hd, by simp +contextual, fun _ => ⟨hb, hw, rfl⟩⟩
  | busyWord w rest hd hb => exact ⟨rfl, w, rest, hd, fun _ => ⟨hb, rfl⟩, by simp +contextual⟩
  | kept _ _ ho hb => rcases hrise with ⟨hs, ht⟩ | ⟨hs, ht⟩ <;> simp [ho, hb, hs] at ht
  | statusWrite w rest _ => rcases hrise with ⟨hs, ht⟩ | ⟨hs, ht⟩ <;> simp [hs] at ht
  | reset => simp at hrise

/-- Settles O14: the only moves that raise an error bit are the two by which a word written to CMD is turned away. -/
theorem errorsComeOnlyFromCmdWrites : Obligations.ErrorsComeOnlyFromCmdWrites := fun _ _ h hrise =>
  (step_errorMove h).cmdWrite_of_rises hrise

/-- A move that clears ERR_OPCODE is the reset or a write of STATUS with bit 1 equal to 1 (R206, R207). -/
theorem ErrorMove.errOpcode_falls {s t : State} {x : Turn} (h : ErrorMove s x t) (hs : s.errOpcode = true)
    (ht : t.errOpcode = false) :
    x = .reset ∨ x = .driver ∧ ∃ w rest, s.driver = .write 4 0x04 w :: rest ∧ w.getLsbD 1 = true := by
  cases h with
  | statusWrite w rest hd => exact .inr ⟨rfl, w, rest, hd, by simpa [hs] using ht⟩
  | reset => exact .inl rfl
  | kept _ _ ho _ => simp [ho, hs] at ht
  | illegalWord _ _ _ _ _ => simp at ht
  | busyWord _ _ _ _ => simp [hs] at ht

/-- A move that clears ERR_BUSY is the reset or a write of STATUS with bit 2 equal to 1 (R206, R207). -/
theorem ErrorMove.errBusy_falls {s t : State} {x : Turn} (h : ErrorMove s x t) (hs : s.errBusy = true)
    (ht : t.errBusy = false) :
    x = .reset ∨ x = .driver ∧ ∃ w rest, s.driver = .write 4 0x04 w :: rest ∧ w.getLsbD 2 = true := by
  cases h with
  | statusWrite w rest hd => exact .inr ⟨rfl, w, rest, hd, by simpa [hs] using ht⟩
  | reset => exact .inl rfl
  | kept _ _ _ hb => simp [hb, hs] at ht
  | illegalWord _ _ _ _ _ => simp [hs] at ht
  | busyWord _ _ _ _ => simp at ht

/-- Settles O15: every other move keeps both bits or raises one. -/
theorem errorBitsAreSticky : Obligations.ErrorBitsAreSticky := fun _ _ h =>
  ⟨(step_errorMove h).errOpcode_falls, (step_errorMove h).errBusy_falls⟩

end Sys2Proof.Machine
end

section
/-! PROOFS of the reset and hazards family (70_reset_and_hazards.md): the reset input, operand registers written while
BUSY is 1, a command held back by its environment, and a store into the range of the command in flight. -/

namespace Sys2Proof.Machine

/-- A turn put first in the schedule is the one the step takes. -/
theorem step_withTurn (x : Turn) (u : State) : step (withTurn x u) = takeTurn x u := rfl

/-! ### Reset (R230, R231) -/

/-- Settles O1: the step is the reset input's, at the state with that turn taken off. -/
theorem resetInputGivesResetValues : Obligations.ResetInputGivesResetValues := step_withTurn .reset

/-- After the reset input no readiness lets the engine do anything: no command is in flight (R231). -/
theorem envTurn_resetBlock (r : Readiness) (s : State) : envTurn r (resetBlock s) = setReady r (resetBlock s) :=
  advance_of_idle rfl

/-- Settles O2: the environment's turn after the reset changes its readiness only. -/
theorem resetAbortsCommandInFlight : Obligations.ResetAbortsCommandInFlight := fun u r =>
  ⟨resetBlock u, setReady r (resetBlock u), step_withTurn .reset u,
    (step_withTurn (.env r) (resetBlock u)).trans (congrArg _ (envTurn_resetBlock r u)),
    rfl, rfl, rfl, rfl, rfl, rfl⟩

/-! ### Operand registers written while BUSY is 1 (R236) -/

/-- No small step looks at ARG0 or ARG1: the command in flight has latched them. -/
theorem engineStep_setArgs (a0 a1 : Word) (s : State) :
    engineStep (setArg0 a0 (setArg1 a1 s)) = (engineStep s).map fun t => setArg0 a0 (setArg1 a1 t) := by
  unfold engineStep
  rw [setArg0_inflight, setArg1_inflight]
  cases s.inflight with
  | none => rfl
  | some f =>
    dsimp only
    split <;> rw [Option.map_map] <;> rfl

theorem advance_setArgs (a0 a1 : Word) (s : State) :
    advance (setArg0 a0 (setArg1 a1 s)) = setArg0 a0 (setArg1 a1 (advance s)) :=
  advance_comm (fun t => setArg0 a0 (setArg1 a1 t)) (engineStep_setArgs a0 a1) s

/-- The engine's run is the same after a write of ARG0. -/
theorem advance_setArg0 (w : Word) (s : State) : advance (setArg0 w s) = setArg0 w (advance s) := by
  obtain ⟨-, -, -, harg1, -⟩ := advance_frame s
  refine (advance_setArgs w s.arg1 s).trans ?_
  rw [← harg1]
  rfl

/-- The engine's run is the same after a write of ARG1. -/
theorem advance_setArg1 (w : Word) (s : State) : advance (setArg1 w s) = setArg1 w (advance s) := by
  obtain ⟨-, -, harg0, -⟩ := advance_frame s
  refine (advance_setArgs s.arg0 w s).trans ?_
  rw [← harg0]
  rfl

/-- Settles O20: the port makes the write whatever the engine does, and the engine's run does not see it. -/
theorem operandRegistersAreFreeWhileBusy : Obligations.OperandRegistersAreFreeWhileBusy := fun _ u w =>
  ⟨fun h => ⟨step_of_issues_write h (by decide), fun r => advance_setArg0 w (setReady r u)⟩,
    fun h => ⟨step_of_issues_write h (by decide), fun r => advance_setArg1 w (setReady r u)⟩⟩

/-! ### A command whose environment falls short (R235, R240) -/

/-- What it takes to put out the events `todo` and complete: a byte is the sink's to accept, a flush the engine's to
request and the sink's to acknowledge, and the completion is the engine's (R240). -/
def needsToEmit (todo : List OutEvent) : Needs :=
  ⟨todo.countP (· = .flush) + 1, 0, todo.countP (· ≠ .flush), todo.countP (· = .flush)⟩

/-- What the command still needs of its environment at a progress (R240). -/
def Job.needsLeft (j : Job) : Progress → Needs
  | .reading k _ _ => { needs j.instr j.la1 with memory := payloadCountOf j.instr j.la1 - k }
  | .emitting todo _ => needsToEmit todo
  | .awaitingAck todo _ => { needsToEmit todo with flush := todo.countP (· = .flush) + 1 }

/-- At its acceptance a command needs what R240 says. -/
theorem needsLeft_startOf (i : Instr) (s : State) :
    (jobOf i s).needsLeft (startOf i s.acc s.arg0 s.arg1) = needs i s.arg1 := by
  cases i <;> rfl

/-- What R240 says of a reader beside its payload reads is what its events need. -/
theorem Job.Folds.needsToEmit_events {j : Job} {s : State} {c : Word} {data : List Byte} (h : j.Folds s c data) :
    needsToEmit (j.events s) = { needs j.instr j.la1 with memory := 0 } := by
  obtain ⟨i, la0, la1, before⟩ := j
  obtain ⟨rfl, -⟩ | ⟨rfl, -⟩ := h
  · rfl
  · simp only [needsToEmit, Job.events, commandEvents, List.countP_append, countP_byte_byteEvents,
      countP_flush_byteEvents, chunkBytes_length, Memory.bytes_length]
    rfl

/-- Going on from the last payload read needs nothing. -/
theorem Job.Follows.needsLeft_current {j : Job} {s : State} {p : Progress} (h : j.Follows s p) :
    j.needsLeft (j.latched p).current = j.needsLeft p := by
  cases h with
  | reading k c buf hc hk hb _ =>
    by_cases hlt : k < payloadCountOf j.instr j.la1
    · rw [InFlight.current_of_lt rfl (by rwa [Job.latched_count])]
    · obtain rfl : k = payloadCountOf j.instr j.la1 := by omega
      rw [InFlight.current_of_not_lt rfl (by simp), Job.latched_afterRead, hc.afterRead hb]
      simp [Job.needsLeft, hc.needsToEmit_events]
  | emitting _ _ _ _ _ _ _ => rfl
  | awaitingAck _ _ _ _ _ _ => rfl

/-- A credit spent is one act less to cover. -/
theorem Credit.covers_succ_of_spend {c c' : Credit} (h : c.spend = some c') (n : Nat) :
    c.covers (n + 1) = c'.covers n := by
  cases c with
  | unlimited => cases h; rfl
  | upTo m =>
    cases m with
    | zero => cases h
    | succ m => cases h; simp [Credit.covers]

@[simp] theorem Credit.covers_zero (c : Credit) : c.covers 0 = true := by
  cases c with
  | unlimited => rfl
  | upTo m => exact decide_eq_true m.zero_le

/-- In `s` the command is in flight and its environment will not act as often as it still needs. -/
def Job.Short (j : Job) (s : State) : Prop :=
  ∃ p, s.inflight = some (j.latched p) ∧ j.Follows s p ∧ s.ready.covers (j.needsLeft p) = false

/-- A small step spends the one credit that the command needs less after it, so what falls short still does; the
completion would need what it spends and no more. -/
theorem Job.Short.after_engineStep {j : Job} {s t : State} (h : j.Short s) (ht : engineStep s = some t) :
    j.Short t := by
  obtain ⟨p, hp, hfollows, hshort⟩ := h
  obtain ⟨f, hf, hstep⟩ := engineStep_cases ht
  obtain rfl : j.latched p = f := Option.some.inj (hp.symm.trans hf)
  rw [← hfollows.needsLeft_current] at hshort
  have hcur := hfollows.current
  rcases hstep with ⟨k, c, buf, m, hc, hm, rfl⟩ | ⟨wr, e, hc, he, rfl⟩ | ⟨b, todo, wr, k, hc, hk, rfl⟩ |
    ⟨todo, wr, e, hc, he, rfl⟩ | ⟨todo, wr, a, hc, ha, rfl⟩ <;> rw [hc] at hcur hshort
  case inl =>
    have hlt := (InFlight.current_reading hc).2
    rw [Job.latched_count] at hlt
    obtain ⟨q, hq, hj⟩ := hcur.after_readNext (p := p) (r := { s.ready with memory := m }) hlt
    refine ⟨q, hq, hj, ?_⟩
    obtain rfl := congrArg InFlight.progress (Option.some.inj hq)
    have hleft : payloadCountOf j.instr j.la1 - k = payloadCountOf j.instr j.la1 - (k + 1) + 1 := by omega
    simpa [Job.latched, Job.needsLeft, Readiness.covers, hleft, Credit.covers_succ_of_spend hm] using hshort
  case inr.inl =>
    simp [Job.needsLeft, needsToEmit, Readiness.covers, Credit.covers_succ_of_spend he] at hshort
  case inr.inr.inl => exact ⟨_, rfl, hcur.after_emitByte, by
    simpa [Job.needsLeft, needsToEmit, Readiness.covers, Credit.covers_succ_of_spend hk] using hshort⟩
  case inr.inr.inr.inl => exact ⟨_, rfl, hcur.after_requestFlush, by
    simpa [Job.needsLeft, needsToEmit, Readiness.covers, Credit.covers_succ_of_spend he] using hshort⟩
  case inr.inr.inr.inr => exact ⟨_, rfl, hcur.after_ackFlush, by
    simpa [Job.needsLeft, needsToEmit, Readiness.covers, Credit.covers_succ_of_spend ha] using hshort⟩

/-- Settles O34: the engine's run leaves the command short of what it needs, so in flight. -/
theorem commandWaitsForItsEnvironment : Obligations.CommandWaitsForItsEnvironment := by
  intro i s hb hr
  have hshort : (jobOf i s).Short (advance (accept i (startOf i) s)) :=
    advance_induction (jobOf i s).Short (fun _ _ => Job.Short.after_engineStep)
      ⟨_, rfl, accept_follows i s, by rwa [needsLeft_startOf]⟩
  obtain ⟨p, hp, -⟩ := hshort
  rcases (accept_underWay i s).after_advance with hu | hc
  · obtain ⟨sent, hsent, hout⟩ := hu.out
    exact ⟨_, _, sent, exec_of_idle i hb, hu.busy, hp, rfl, rfl, rfl, hu.result, hu.acc, hout, hsent⟩
  · cases hp.symm.trans hc.inflight

/-! ### A stalled sink (R238) -/

/-- The next thing `f` needs is a byte accepted, or a flush acknowledged, and under `r` the sink does not do it. -/
def InFlight.HeldBackBy (f : InFlight) (r : Readiness) : Prop :=
  (∃ b todo wr, f.current = .emitting (.byte b :: todo) wr) ∧ r.sink = .upTo 0 ∨
    (∃ todo wr, f.current = .awaitingAck todo wr) ∧ r.flush = .upTo 0

/-- `f` is in flight in `s`, and the sink holds it back. -/
structure HeldBack (f : InFlight) (s : State) : Prop where
  busy : s.busy = true
  inflight : s.inflight = some f
  held : f.HeldBackBy s.ready

/-- Where the sink holds the command back the engine does not move. -/
theorem HeldBack.advance_eq {f : InFlight} {s : State} (h : HeldBack f s) : advance s = s := by
  refine advance_of_stuck ?_
  rcases h.held with ⟨⟨b, todo, wr, hc⟩, hr⟩ | ⟨⟨todo, wr, hc⟩, hr⟩ <;>
    simp [engineStep, h.inflight, hc, hr, Credit.spend]

/-- With BUSY 1 no operation of the driver touches the command in flight, `OUT`, or how ready the environment is. -/
theorem Made.kept_of_busy {s t : State} {op : DriverOp} (h : Made s op t) (hb : s.busy = true) :
    t.busy = s.busy ∧ t.inflight = s.inflight ∧ t.out = s.out ∧ t.ready = s.ready ∧ t.sched = s.sched := by
  cases h with
  | command w i _ _ ht =>
    rcases exec_next_cases ht with ⟨-, rfl⟩ | ⟨hidle, -⟩
    · exact ⟨rfl, rfl, rfl, rfl, rfl⟩
    · cases hb.symm.trans hidle
  | illegalWord w e _ =>
    rw [if_pos hb]
    exact ⟨rfl, rfl, rfl, rfl, rfl⟩
  | _ => exact ⟨rfl, rfl, rfl, rfl, rfl⟩

/-- No move but the reset gets a command past a sink that does not let it. -/
theorem Moved.heldBack {f : InFlight} {s t : State} {x : Turn} (h : Moved s x t) (hs : HeldBack f s)
    (hreset : x ≠ .reset) (henv : ∀ r, x = .env r → f.HeldBackBy r) :
    HeldBack f t ∧ t.out = s.out ∧ t.sched = s.sched := by
  have ⟨hb, hf, hheld⟩ := hs
  cases h with
  | idle _ =>
    rw [hs.advance_eq]
    exact ⟨hs, rfl, rfl⟩
  | made op rest _ _ hm =>
    obtain ⟨hbusy, hinflight, hout, hready, hsched⟩ := hm.kept_of_busy hb
    exact ⟨⟨hbusy.trans hb, hinflight.trans hf, hready ▸ hheld⟩, hout, hsched⟩
  | poll rest _ =>
    have hread : HeldBack f (recordRead (statusWord s) s) := ⟨hb, hf, hheld⟩
    rw [pollStatus_of_busy rest hb, hread.advance_eq]
    exact ⟨hread, rfl, rfl⟩
  | env r =>
    have hset : HeldBack f (setReady r s) := ⟨hb, hf, henv r rfl⟩
    rw [hset.advance_eq]
    exact ⟨hset, rfl, rfl⟩
  | store a b _ => exact ⟨⟨hb, hf, hheld⟩, rfl, rfl⟩
  | reset => exact absurd rfl hreset

/-- `f` is held back in `s`, and no scheduled turn will change that. -/
structure HeldBackForGood (f : InFlight) (s : State) : Prop extends HeldBack f s where
  noReset : Turn.reset ∉ s.sched
  heldLater : ∀ r, Turn.env r ∈ s.sched → f.HeldBackBy r

/-- Every step leaves such a command where it is, and so `OUT`, RESULT and ACC. -/
theorem HeldBackForGood.step {f : InFlight} {s t : State} (h : HeldBackForGood f s) (hst : step s = .next t) :
    HeldBackForGood f t ∧ t.out = s.out ∧ t.result = s.result ∧ t.acc = s.acc := by
  have hhead : ∀ x, s.sched.headD .driver = x → x ≠ .driver → x ∈ s.sched := by
    rintro x rfl hx
    cases hsched : s.sched with
    | nil => simp [hsched] at hx
    | cons y ys => simp
  obtain ⟨hheld, hout, hsched⟩ := (step_moved hst).heldBack (f := f) ⟨h.busy, h.inflight, h.held⟩
    (fun hx => h.noReset (hhead _ hx nofun)) (fun r hx => h.heldLater r (hhead _ hx nofun))
  have hlater : t.sched ⊆ s.sched := by
    rw [hsched]
    exact List.tail_subset s.sched
  exact ⟨⟨hheld, fun hx => h.noReset (hlater hx), fun r hx => h.heldLater r (hlater hx)⟩, hout,
    resultsAppearOnlyAtCompletion s t hst hheld.busy⟩

/-- A run of at least one step is a step and the rest of the run. -/
theorem exists_step_of_runsTo_succ {k : Nat} {s t : State} (h : runsTo (k + 1) s t) :
    ∃ u, step s = .next u ∧ runsTo k u t := by
  simp only [runsTo, Host.Core.run] at h
  split at h
  · exact ⟨_, ‹_›, h⟩
  · cases h
  · cases h

/-- Every run leaves such a command where it is, and so `OUT`, RESULT and ACC. -/
theorem HeldBackForGood.run {f : InFlight} {k : Nat} {s t : State} (h : HeldBackForGood f s) (hst : runsTo k s t) :
    HeldBackForGood f t ∧ t.out = s.out ∧ t.result = s.result ∧ t.acc = s.acc := by
  induction k generalizing s with
  | zero =>
    cases hst
    exact ⟨h, rfl, rfl, rfl⟩
  | succ k ih =>
    obtain ⟨u, hsu, hut⟩ := exists_step_of_runsTo_succ hst
    obtain ⟨hu, hout, hresult, hacc⟩ := h.step hsu
    obtain ⟨ht, hout', hresult', hacc'⟩ := ih hu hut
    exact ⟨ht, hout'.trans hout, hresult'.trans hresult, hacc'.trans hacc⟩

/-- Settles O35: the sink holds the command back now and in every scheduled turn, so the whole run does. -/
theorem stalledSinkKeepsBlockBusy : Obligations.StalledSinkKeepsBlockBusy := by
  intro k s t f hb hf hreset hsink hrun
  have hheld : HeldBackForGood f s := by
    rcases hsink with ⟨hc, hr, hlater⟩ | ⟨hc, hr, hlater⟩
    · exact ⟨⟨hb, hf, .inl ⟨hc, hr⟩⟩, hreset, fun r hx => .inl ⟨hc, hlater r hx⟩⟩
    · exact ⟨⟨hb, hf, .inr ⟨hc, hr⟩⟩, hreset, fun r hx => .inr ⟨hc, hlater r hx⟩⟩
  obtain ⟨ht, hout, hresult, hacc⟩ := hheld.run hrun
  exact ⟨ht.busy, ht.inflight, hout, hresult, hacc⟩

/-! ### A free environment (R240) -/

/-- An environment that never holds back lets the engine's run finish what is in flight. -/
theorem inflight_advance_of_free {s : State} (h : s.ready = Readiness.free) : (advance s).inflight = none :=
  inflight_eq_none_of_stuck (advance_induction (·.ready = Readiness.free) (fun _ _ => engineStep_ready_free) h)
    (engineStep_advance s)

/-- Settles O36: the engine's run leaves no command in flight, and by the invariant BUSY is then 0. -/
theorem commandInFlightCompletesUnderFreeEnvironment :
    Obligations.CommandInFlightCompletesUnderFreeEnvironment := by
  intro s h
  have hinv : (envTurn Readiness.free s).Inv := (h.of_sameEngine (t := setReady Readiness.free s) {}).after_advance
  have hdone : (envTurn Readiness.free s).inflight = none := inflight_advance_of_free rfl
  exact ⟨_, step_withTurn (.env Readiness.free) s, by rw [hinv.busyIff, hdone]; rfl, hdone⟩

/-! ### A store into the range of the command in flight (R237) -/

/-- CRC_BUF reads LA1 bytes and CHUNK the length in LA1's high half, both from LA0 on (30_encoding.md R83). -/
theorem InFlight.range_of_reader {f : InFlight} {n : Nat}
    (h : f.lop = 0x03#8 ∧ n = f.la1.toNat ∨ f.lop = 0x21#8 ∧ n = (f.la1.extractLsb' 16 16).toNat) :
    f.base = f.la0 ∧ f.count = n := by
  obtain ⟨lop, la0, la1, p⟩ := f
  obtain ⟨rfl, rfl⟩ | ⟨rfl, rfl⟩ := h <;> exact ⟨rfl, rfl⟩

/-- A store to an address the command in flight owns is `PayloadRace`. -/
theorem storeByte_of_owned {s : State} {f : InFlight} {a : Word} (b : Byte) (hf : s.inflight = some f)
    (h : f.owns a = true) : storeByte a b s = .fault .payloadRace := by
  simp [storeByte, hf, h]

/-- A fault of the first step is where every run of at least one step stops. -/
theorem run_succ_of_step_fault {s : State} {r : Fault} (j : Nat) (h : step s = .fault r) :
    Sys2Proof.core.run (j + 1) s = .fault r := by
  simp [Host.Core.run, show Sys2Proof.core.step s = .fault r from h]

/-- Settles O39: the address is owned, so the store faults by whichever agent, and the run stays there. -/
theorem storeIntoOwnedRangeIsPayloadRace : Obligations.StoreIntoOwnedRangeIsPayloadRace := by
  intro s u f a b n k j hf hreader hk ha
  obtain ⟨hbase, rfl⟩ := InFlight.range_of_reader hreader
  have hown : f.owns a = true := InFlight.owns_iff.mpr ⟨k, hk, hbase.symm ▸ ha⟩
  exact ⟨fun h => run_succ_of_step_fault j ((step_of_issues h).trans (storeByte_of_owned b hf hown)),
    run_succ_of_step_fault j (storeByte_of_owned b hf hown)⟩

end Sys2Proof.Machine
end
